-- ==== Sys2Proof/Word.lean ====
section
/-! DEFINITION. The byte that crosses a link, and a booking reference as its characters' codes. -/

namespace Sys2Proof

/-- One character on a link (spec/09 R150: 8 data bits). -/
abbrev Byte := BitVec 8

/-- A booking reference: 1 to 10 character codes (spec/00 0.4.2, spec/03 R40), compared character for
character and in length. -/
abbrev Booking := List Byte

/-- `v` brought into the range from `lo` to `hi` (the clamping of R60, R64, R66, R70, R103). -/
def clampInt (lo hi v : Int) : Int := if v < lo then lo else if hi < v then hi else v

end Sys2Proof
end

