-- ==== Sys2Proof/Syntax.lean ====
section
/-! DEFINITION. The commands: one constructor for each row of spec/opcode_table.json, with the row's
operands. A request row takes the oldest frame of the named link's mailbox (spec/09 R152), so its one
operand is the link; the frame's kind, tag and payload stand in the mailbox. -/

namespace Sys2Proof

/-- The six stations, and with them the six links (spec/00 Table 0-2, spec/09 R150). -/
inductive Station where
  | loading | yard | ramp1 | ramp2 | ramp3 | ramp4
  deriving DecidableEq, Repr

/-- The start strap (spec/11 R165). -/
inductive StartStrap where
  | cold | warm
  deriving DecidableEq, Repr

/-- The levels of a section's three position inputs, `true` for asserted (spec/08 8.2). -/
structure Inputs where
  raised : Bool
  mid : Bool
  lowered : Bool
  deriving DecidableEq, Repr

/-- The steps of the part (spec/opcode_table.json, spec/95_what_each_step_holds.md). -/
inductive Instr where
  | defLane (st : Station)
  | defZone (st : Station)
  | defRamp (st : Station)
  | defSection (st : Station)
  | defShip (st : Station)
  | sealPlan (st : Station)
  | clearPlan (st : Station)
  | band (st : Station)
  | heelModel (st : Station)
  | tanks (st : Station)
  | releaseStop (st : Station)
  | timeout (st : Station)
  | cutoff (st : Station)
  | clock (st : Station)
  | resume (st : Station)
  | linkReset (st : Station)
  | suspendRamp (st : Station)
  | resumeRamp (st : Station)
  | move (st : Station)
  | cancelMove (st : Station)
  | clearFault (st : Station)
  | announce (st : Station)
  | withdraw (st : Station)
  | setPriority (st : Station)
  | setMask (st : Station)
  | arrive (st : Station)
  | lashed (st : Station)
  | backout (st : Station)
  | sendBack (st : Station)
  | unlash (st : Station)
  | offloaded (st : Station)
  | keep (st : Station)
  | closeLane (st : Station)
  | openLane (st : Station)
  | verify (st : Station)
  | readLane (st : Station)
  | readUnit (st : Station)
  | readAccount (st : Station)
  | readState (st : Station)
  | ident (st : Station)
  | subscribe (st : Station)
  | unknownMessageKind (st : Station)
  /-- Bytes reach the receiver of a link. -/
  | frameReceived (st : Station) (bytes : List Byte)
  | interbyteTimeout (st : Station)
  | frameSent (st : Station)
  | lineBreak (st : Station)
  /-- The line-ready input takes a level, `true` for ASSERTED. -/
  | lineReadyChange (st : Station) (asserted : Bool)
  | quietLimit (st : Station)
  | loadExpiry (lane : Nat)
  | dischargeExpiry (lane : Nat)
  | tankReportExpiry
  /-- The converter delivers a 12-bit code. -/
  | sample (code : BitVec 12)
  | clockAdvance
  | moveTimerExpiry (sect : Nat)
  | sectionInputChange (sect : Nat) (levels : Inputs)
  | powerFail
  | powerRestored
  | resetAsserted
  /-- Supply is applied or reset released; the start reads the start strap and the rate straps. -/
  | start (strap : StartStrap) (rateStraps : BitVec 3)
  /-- The plan-lock key takes a position, `true` for LOCKED. -/
  | planLockKeyChange (locked : Bool)
  | timeBaseSecond
  | breakEnd (st : Station)
  /-- The supply falls; `cutOff` says whether it cut off an update of the retained image. -/
  | supplyLoss (cutOff : Bool)
  deriving DecidableEq, Repr

end Sys2Proof
end

