-- ==== Sys2Proof/Config.lean ====
section
/-! DEFINITION. What the module fixes: its capacities (spec/09 Table 9-3), its limits and its
identification codes (spec/12 R174). The spec leaves no computed value undefined, so no free value
stands here. -/

namespace Sys2Proof.Config

/-- Frames a mailbox holds (R151). -/
def mailboxSize : Nat := 8
/-- Frames an outbound queue holds (R153). -/
def queueSize : Nat := 16
/-- Lanes, zones, ramps and sections (Table 9-3). -/
def laneCount : Nat := 48
def zoneCount : Nat := 16
def rampCount : Nat := 4
def sectionCount : Nat := 6
/-- Unit Register records (R42). -/
def registerSize : Nat := 256
/-- Entries of the shared pool (R19). -/
def poolSize : Nat := 640
/-- Entries one lane holds (R19). -/
def laneEntries : Nat := 24
/-- Reservations in the Movement Table, and those of one ramp (R101). -/
def reservations : Nat := 16
def rampReservations : Nat := 6
/-- Waiting List elements, and the failed examinations that exclude one (R124, R127). -/
def waitingSize : Nat := 16
def retryLimit : Nat := 16
/-- Seconds of quiet after which a station is ABSENT (R155). -/
def quietLimit : Nat := 10
/-- Age in seconds at which a tank report expires (R65). -/
def tankLimit : Nat := 30
/-- Seconds a running move is allowed (R141). -/
def moveSeconds : Nat := 240
/-- The last value of the plan clock and of the admission sequence counter (R132, R93). -/
def maxTime : Nat := 4294967295
/-- The divisor of the heel model (R70). -/
def heelDivisor : Int := 16777216
/-- Vendor, part and revision codes of IDENT (R174). -/
def vendorCode : Nat := 0x0A3E
def partCode : Nat := 0x4816
def revisionMajor : Nat := 1
def revisionMinor : Nat := 2
/-- The ship record's defaults (R1). -/
def defaultGap : Nat := 3
def defaultSegregation : Nat := 60

end Sys2Proof.Config
end

