-- ==== Sys2Proof/Machine/Table.lean ====
section
/-! DEFINITION. Stores keyed by number: lanes, zones, ramps, sections, section inputs. A table lists the
defined numbers in strictly rising order, each with its record; an undefined number is not listed, so
equal stores are equal data. -/

namespace Sys2Proof

/-- Records under numbers, in one canonical form (`Table.wf`). -/
abbrev Table (α : Type) := List (Nat × α)

/-- The record under number `n`, if defined. -/
def Table.get {α : Type} (t : Table α) (n : Nat) : Option α :=
  match t with
  | [] => none
  | (k, v) :: rest => if k = n then some v else Table.get rest n

/-- Defines or replaces number `n`. -/
def Table.set {α : Type} (t : Table α) (n : Nat) (a : α) : Table α :=
  match t with
  | [] => [(n, a)]
  | (k, v) :: rest =>
    if n < k then (n, a) :: (k, v) :: rest
    else if n = k then (n, a) :: rest
    else (k, v) :: Table.set rest n a

/-- Makes number `n` undefined. -/
def Table.erase {α : Type} (t : Table α) (n : Nat) : Table α :=
  match t with
  | [] => []
  | (k, v) :: rest => if k = n then rest else (k, v) :: Table.erase rest n

/-- Changes the record under `n`; an undefined number stays undefined. -/
def Table.modify {α : Type} (t : Table α) (n : Nat) (f : α → α) : Table α :=
  t.map fun p => if p.1 = n then (p.1, f p.2) else p

/-- Changes every record. -/
def Table.mapAll {α β : Type} (t : Table α) (f : α → β) : Table β :=
  t.map fun p => (p.1, f p.2)

/-- Strictly rising numbers, all above `lo`. -/
def Table.risingAbove {α : Type} (lo : Nat) (t : Table α) : Bool :=
  match t with
  | [] => true
  | (k, _) :: rest => decide (lo < k) && Table.risingAbove k rest

/-- The canonical form: numbers strictly rising from 1 up, none above `last`. -/
def Table.wf {α : Type} (last : Nat) (t : Table α) : Bool :=
  Table.risingAbove 0 t && t.all fun p => decide (p.1 ≤ last)

end Sys2Proof
end

