-- ==== Sys2Proof/Machine/Types.lean ====
section
/-! DEFINITION. The records the controller holds, block by block (spec/00 Table 0-1), with the names of
the manual. Each enumeration lists its values in the order that fixes their codes (spec/12 R172). -/

namespace Sys2Proof.Machine

/-! Stations and links -/

/-- One value for each of the six stations or links. -/
structure PerStation (α : Type) where
  loading : α
  yard : α
  ramp1 : α
  ramp2 : α
  ramp3 : α
  ramp4 : α
  deriving DecidableEq, Repr

/-- A frame's kind, tag and payload; the envelope around them is Table 12-1's. -/
structure Frame where
  kind : Byte
  tag : Byte
  payload : List Byte
  deriving DecidableEq, Repr

/-- The eighteen notice kinds, in the order of Table 10-1; the first five are directed. -/
inductive NoticeKind where
  | assigned | expired | excluded | shutOut | withdrawn
  | unitStowed | unitDischarged | unitExcluded | unannouncedUnit | laneState | limitBreach
  | bandExceeded | heelStop | monitorState | sectionState | stationPresence | mode | cutoffReached
  deriving DecidableEq, Repr

/-- An overflow slot that holds a notice, with its merge count (R161). -/
structure Slot where
  kind : NoticeKind
  content : List Byte
  merge : Nat
  deriving DecidableEq, Repr

/-- What a link's receiver is doing (R151, R154). -/
inductive Receiver where
  | hunting
  | gathering (got : List Byte)
  | inBreak
  deriving DecidableEq, Repr

/-- One link of the Link Interface (R150 to R154, R161 to R163). -/
structure Link where
  /-- Accepted request frames, oldest first. -/
  mailbox : List Frame
  /-- The outbound queue, oldest first. -/
  queue : List Frame
  /-- The slots that hold a notice, in holding order. -/
  slots : List Slot
  /-- The line-ready state held, `true` for ASSERTED. -/
  ready : Bool
  /-- The level of the line-ready input. -/
  readyInput : Bool
  receiver : Receiver
  /-- The transmit pair: the bytes of the last frame sent. -/
  line : List Byte
  deriving DecidableEq, Repr

/-- One row of the Station Table (R155, R160). -/
structure StationRow where
  present : Bool
  /-- The quiet timer in seconds; `none` while it is stopped. -/
  quiet : Option Nat
  /-- The subscription set, in the order of Table 10-1 without repeats. -/
  subscribed : List NoticeKind
  deriving DecidableEq, Repr

/-- Why a station's presence changed (R155). -/
inductive PresenceCause where
  | frame | quiet | lineReady | reset
  deriving DecidableEq, Repr

/-! Units -/

inductive UnitKind where
  | trailer | rigid | car | cassette
  deriving DecidableEq, Repr

inductive DgGroup where
  | a | b | c | d
  deriving DecidableEq, Repr

/-- Fields 2 to 8 of a unit record (Table 3-1); an absent height or DG group is `none`. -/
structure UnitFields where
  kind : UnitKind
  length : Nat
  height : Option Nat
  mass : Nat
  dg : Option DgGroup
  reefer : Bool
  port : Nat
  deriving DecidableEq, Repr

/-- Unit life states (Table 3-3). -/
inductive UnitState where
  | announced | waiting | reserved | check | excluded
  deriving DecidableEq, Repr

/-- A record of the Unit Register (R40). -/
structure UnitRecord where
  booking : Booking
  fields : UnitFields
  unannounced : Bool
  state : UnitState
  deriving DecidableEq, Repr

/-- The unit fields of a lane entry or of a LOAD check record (Tables 2-1, 2-3): the height is the
effective height (R41). -/
structure UnitBody where
  kind : UnitKind
  length : Nat
  height : Nat
  mass : Nat
  dg : Option DgGroup
  reefer : Bool
  port : Nat
  unannounced : Bool
  deriving DecidableEq, Repr

/-! Lanes -/

inductive EntryState where
  | reserved | stowed | leaving
  deriving DecidableEq, Repr

/-- A lane entry (R18). -/
structure Entry where
  booking : Booking
  unit : UnitBody
  offset : Nat
  state : EntryState
  deriving DecidableEq, Repr

/-- Which movement (Tables 2-3, 6-1). -/
inductive MoveKind where
  | load | discharge
  deriving DecidableEq, Repr

/-- What a check record holds beside the fields of both kinds: a LOAD check record carries the unit
fields of the entry it was made from (R25). -/
inductive CheckContent where
  | load (unit : UnitBody)
  | discharge
  deriving DecidableEq, Repr

/-- A check record (Table 2-3). -/
structure CheckRecord where
  booking : Booking
  ramp : Nat
  delta : Int
  zone : Option Nat
  offset : Nat
  content : CheckContent
  deriving DecidableEq, Repr

inductive Direction where
  | fore | aft
  deriving DecidableEq, Repr

/-- A lane's relation to a hoistable section (Table 1-2, field 12). -/
inductive Relation where
  | none
  | on (sect : Nat)
  | beneath (sect : Nat)
  deriving DecidableEq, Repr

/-- The set of unit kinds a lane accepts (Table 1-2, field 11). -/
structure KindSet where
  trailer : Bool
  rigid : Bool
  car : Bool
  cassette : Bool
  deriving DecidableEq, Repr

/-- The profile fields of a lane record (Table 1-2). -/
structure LaneProfile where
  deck : Nat
  row : Nat
  length : Nat
  closedEnd : Nat
  direction : Direction
  arm : Int
  baseClearance : Nat
  massCap : Nat
  sockets : Nat
  dgPermitted : Bool
  kinds : KindSet
  relation : Relation
  deriving DecidableEq, Repr

/-- A lane record with its run-time fields (R18, R23, R25, R27, R30, R34, R81). -/
structure Lane where
  profile : LaneProfile
  /-- From the closed end to the open end. -/
  entries : List Entry
  check : Option CheckRecord
  closed : Bool
  level : Nat
  mass : Nat
  revision : Nat
  /-- The current clearance; while its section holds no position, the value of when it last held one. -/
  clearance : Nat
  deriving DecidableEq, Repr

/-- Fill state, in the order of R24. -/
inductive Fill where
  | openFill | full | filling
  deriving DecidableEq, Repr

/-- Displayed state, in the order of Table 2-4. -/
inductive Displayed where
  | away | moving | check | closed | openLane | filling | full
  deriving DecidableEq, Repr

/-- Lamp aspect (Table 2-5). -/
inductive Lamp where
  | green | red | dark
  deriving DecidableEq, Repr

/-! Zones, ramps, sections -/

/-- A zone record (Table 1-3) with its masses (R55, R56). -/
structure Zone where
  deck : Nat
  aft : Nat
  fore : Nat
  cap : Nat
  confirmed : Nat
  pendingLoad : Nat
  deriving DecidableEq, Repr

/-- A row of the ramp table (Table 5-1); fitted is `isSealed` and defined. -/
structure Ramp where
  reach : List Nat
  mask : Nat
  suspended : Bool
  count : Nat
  deriving DecidableEq, Repr

inductive Position where
  | raised | mid | lowered
  deriving DecidableEq, Repr

/-- The six clearances of a section record (Table 1-5). -/
structure Clearances where
  aboveRaised : Nat
  aboveMid : Nat
  aboveLowered : Nat
  beneathRaised : Nat
  beneathMid : Nat
  beneathLowered : Nat
  deriving DecidableEq, Repr

/-- Section states (Table 8-2). -/
inductive SectState where
  | atPosition | movePending | moving | fault
  deriving DecidableEq, Repr

/-- Fault causes (Table 8-3). -/
inductive FaultCause where
  | timeout | wrongInput | multipleInputs | inputLost | inputChanged | powerDown | start
  deriving DecidableEq, Repr

/-- A section record with its run-time fields (Tables 1-5, 8-1). -/
structure Sect where
  clearances : Clearances
  position : Option Position
  state : SectState
  origin : Option Position
  target : Option Position
  faultHeld : Bool
  cause : Option FaultCause
  /-- Seconds left for the running move; 0 and stopped outside MOVING. -/
  timer : Nat
  deriving DecidableEq, Repr

/-- The cause a SECTION_STATE notice carries (R141 to R147): a change by request or arrival, or a fault
cause of Table 8-3. -/
inductive SectCause where
  | move | waitOver | cancel
  | fault (c : FaultCause)
  | arrival | clearFault
  deriving DecidableEq, Repr

/-! Stability Account and Heel Monitor -/

/-- The account's moments, band and revision (R55, R56, R59, R75). -/
structure Account where
  tc : Int
  pPlus : Int
  pMinus : Int
  kp : Int
  ks : Int
  h : Int
  revision : Nat
  deriving DecidableEq, Repr

/-- A held tank report (R64, R65). -/
structure TankReport where
  ta : Int
  age : Nat
  stale : Bool
  deriving DecidableEq, Repr

/-- The Heel Monitor (R64 to R73). -/
structure Monitor where
  kh : Nat
  offset : Int
  tolerance : Int
  tank : Option TankReport
  /-- The last valid samples, oldest first, at most four. -/
  history : List Int
  rail : Nat
  qualified : Nat
  divergence : Nat
  stop : Bool
  deriving DecidableEq, Repr

/-- Monitor states (Table 4-4). -/
inductive MonitorState where
  | off | stale | rail | active
  deriving DecidableEq, Repr

/-! Movements, waiting units, plan clock -/

/-- A reservation (Table 6-1). -/
structure Reservation where
  kind : MoveKind
  lane : Nat
  ramp : Nat
  booking : Booking
  mass : Nat
  delta : Int
  zone : Option Nat
  offset : Nat
  seq : Nat
  seconds : Nat
  deriving DecidableEq, Repr

/-- The reasons of a reason list: the fourteen of Table 5-3 in their order, then HEEL_STOP
(Table 12-5). -/
inductive WaitReason where
  | mask | sect | state | busy | limit | kind | length | height | order | reefer | dg | laneMass
  | zoneMass | heel | heelStop
  deriving DecidableEq, Repr

/-- A reason list: each distinct reason with its count (R94). -/
abbrev Reasons := List (WaitReason × Nat)

/-- A Waiting List element (Table 7-1). -/
structure Waiting where
  booking : Booking
  ramp : Nat
  retries : Nat
  reasons : Reasons
  deriving DecidableEq, Repr

/-- The Plan Clock (R132 to R136). -/
structure PlanClock where
  now : Nat
  cutoff : Option Nat
  reached : Bool
  deriving DecidableEq, Repr

/-! Start Control and the retained store -/

/-- The modes in which the controller works; POWER_DOWN is held beside the mode it left. -/
inductive WorkMode where
  | profile | run | recovery
  deriving DecidableEq, Repr

/-- Device modes, in the order of R164. -/
inductive Mode where
  | profile | run | recovery | powerDown
  deriving DecidableEq, Repr

/-- Causes of a MODE notice, in the order of Table 11-1. -/
inductive ModeCause where
  | cold | coldAfterLoss | warm | sealed | clearPlan | resume | planLock | powerRestored
  deriving DecidableEq, Repr

/-- Start Control (R164 to R168). -/
structure Control where
  /-- The working mode, and in POWER_DOWN the mode held before it. -/
  work : WorkMode
  /-- POWER_DOWN. -/
  down : Bool
  /-- Supply is applied. -/
  supplied : Bool
  /-- The reset input is asserted. -/
  resetInput : Bool
  /-- The power-fail input is asserted. -/
  powerFailInput : Bool
  /-- The plan-lock key is LOCKED. -/
  keyLocked : Bool
  /-- The rate straps as read at the last start. -/
  rateStraps : BitVec 3
  /-- The section states before POWER_DOWN, for the reports of the resumption (R148). -/
  statesBefore : Table SectState
  deriving DecidableEq, Repr

/-- The retained image (R169). -/
structure Image where
  isSealed : Bool
  lanes : Table Lane
  zones : Table Zone
  ramps : Table Ramp
  sections : Table Sect
  gap : Nat
  segregation : Nat
  /-- The admitting ramp of each lane's RESERVED or LEAVING entry. -/
  admitting : Table Nat
  register : List UnitRecord
  kp : Int
  ks : Int
  h : Int
  kh : Nat
  offset : Int
  tolerance : Int
  stop : Bool
  timeout : Nat
  clock : PlanClock
  deriving DecidableEq, Repr

/-- The retained store: its image, and whether the integrity word matches it. -/
structure Store where
  image : Image
  intact : Bool
  deriving DecidableEq, Repr

end Sys2Proof.Machine
end

