-- ==== Sys2Proof/Machine/State.lean ====
section
/-! DEFINITION. The machine's state, the reasons it stops, and the state right after a cold start. -/

namespace Sys2Proof.Machine

/-- Everything the controller holds, block by block (spec/00 Table 0-1), and the queue of commands that
are waiting. -/
structure State where
  /-- The Link Interface. -/
  links : PerStation Link
  /-- The Station Table. -/
  stations : PerStation StationRow
  /-- The Unit Register, in the order the records were created. -/
  register : List UnitRecord
  /-- The profile is sealed. -/
  isSealed : Bool
  lanes : Table Lane
  zones : Table Zone
  ramps : Table Ramp
  sections : Table Sect
  /-- The lashing gap. -/
  gap : Nat
  /-- The segregation distance. -/
  segregation : Nat
  /-- Pool entries in use (R19). -/
  poolInUse : Nat
  account : Account
  monitor : Monitor
  /-- The next admission sequence number (R93). -/
  seqNext : Nat
  /-- The Movement Table, in admission order. -/
  movements : List Reservation
  /-- The reservation timeout (R103). -/
  timeout : Nat
  /-- The Waiting List, oldest first. -/
  waiting : List Waiting
  clock : PlanClock
  /-- The section position inputs; a section not listed has none asserted. -/
  inputs : Table Inputs
  control : Control
  store : Store
  /-- The commands that wait, first in first out. -/
  pending : List Instr
  deriving DecidableEq, Repr

/-- Why the machine stops. -/
inductive Fault where
  /-- Raised by `execSectionInputChange` for a section number outside 1 to 6: the module has no such
  terminals (spec/00 0.1.2, Table 11-2). Safe: no claim about a real terminal is touched. -/
  | noSuchTerminal (sect : Nat)
  deriving DecidableEq, Repr

/-- Why a command has no meaning. -/
inductive Refusal where
  /-- A command of the table that is not modelled yet; no arm of `exec` answers with it. Safe. -/
  | notModelled (mnemonic : String)
  deriving DecidableEq, Repr

/-- The default subscription sets (Table 10-2). -/
def defaultSubscriptions : Station → List NoticeKind
  | .loading =>
    [.unitStowed, .unitDischarged, .unitExcluded, .unannouncedUnit, .laneState, .limitBreach,
      .bandExceeded, .heelStop, .monitorState, .sectionState, .stationPresence, .mode, .cutoffReached]
  | .yard =>
    [.unitStowed, .unitDischarged, .unitExcluded, .unannouncedUnit, .stationPresence, .mode,
      .cutoffReached]
  | _ => [.laneState, .heelStop, .sectionState, .mode, .cutoffReached]

/-- A station's row after every start (R155, R160): ABSENT, timer stopped, default subscriptions. -/
def StationRow.atStart (st : Station) : StationRow where
  present := false
  quiet := none
  subscribed := defaultSubscriptions st

/-- A link emptied by a start (R165), its line-ready state read from the input (R150). -/
def Link.atStart (readyInput : Bool) : Link where
  mailbox := []
  queue := []
  slots := []
  ready := readyInput
  readyInput := readyInput
  receiver := .hunting
  line := []

/-- The retained contents of a cold start (R1, R53, Table 4-7, R103, R132, R165). -/
def Image.cold : Image where
  isSealed := false
  lanes := []
  zones := []
  ramps := []
  sections := []
  gap := Config.defaultGap
  segregation := Config.defaultSegregation
  admitting := []
  register := []
  kp := 0
  ks := 0
  h := 0
  kh := 0
  offset := 0
  tolerance := 50
  stop := false
  timeout := 300
  clock := { now := 0, cutoff := none, reached := false }

/-- The controller with every store at its cold-start value and nothing in its links: what a cold start
sets up before it sends MODE (R165). -/
def State.blank : State where
  links :=
    { loading := Link.atStart true, yard := Link.atStart true, ramp1 := Link.atStart true,
      ramp2 := Link.atStart true, ramp3 := Link.atStart true, ramp4 := Link.atStart true }
  stations :=
    { loading := StationRow.atStart .loading, yard := StationRow.atStart .yard,
      ramp1 := StationRow.atStart .ramp1, ramp2 := StationRow.atStart .ramp2,
      ramp3 := StationRow.atStart .ramp3, ramp4 := StationRow.atStart .ramp4 }
  register := []
  isSealed := false
  lanes := []
  zones := []
  ramps := []
  sections := []
  gap := Config.defaultGap
  segregation := Config.defaultSegregation
  poolInUse := 0
  account := { tc := 0, pPlus := 0, pMinus := 0, kp := 0, ks := 0, h := 0, revision := 0 }
  monitor :=
    { kh := 0, offset := 0, tolerance := 50, tank := none, history := [], rail := 0, qualified := 0,
      divergence := 0, stop := false }
  seqNext := 1
  movements := []
  timeout := 300
  waiting := []
  clock := { now := 0, cutoff := none, reached := false }
  inputs := []
  control :=
    { work := .profile, down := false, supplied := true, resetInput := false,
      powerFailInput := false, keyLocked := false, rateStraps := 0, statesBefore := [] }
  store := { image := Image.cold, intact := true }
  pending := []

/-- The MODE notice of a cold start with strap COLD, as it waits in each queue: kind D0, tag 0, merge
count 1, mode PROFILE, cause COLD (R164, R165, R170, Table 12-7). -/
def coldModeFrame : Frame where
  kind := 0xD0
  tag := 0
  payload := [1, 1, 1]

/-- A link right after a cold start: emptied, then the MODE notice placed (every default subscription
set holds MODE). -/
def Link.atReset : Link := { Link.atStart true with queue := [coldModeFrame] }

/-- The controller right after a start with strap COLD (R165). The levels of the input pins are a
DESIGN CHOICE (notes/assumptions/2.md). -/
def State.reset : State :=
  { State.blank with
    links :=
      { loading := Link.atReset, yard := Link.atReset, ramp1 := Link.atReset,
        ramp2 := Link.atReset, ramp3 := Link.atReset, ramp4 := Link.atReset } }

end Sys2Proof.Machine
end

