-- ==== Sys2Proof/Machine/Operands.lean ====
section
/-! DEFINITION. Operand forms: stations and their numbers, and how fields cross a link (spec/12 R172,
R174). Encoders give the bytes a frame carries; decoders read a payload's fields, each refusing by
`none` a code outside its set. Layout choices the manual leaves open are notes/assumptions/9.md to
12.md. -/

namespace Sys2Proof.Machine

/-! Stations -/

/-- The value for one station. -/
def PerStation.get {α : Type} (p : PerStation α) : Station → α
  | .loading => p.loading
  | .yard => p.yard
  | .ramp1 => p.ramp1
  | .ramp2 => p.ramp2
  | .ramp3 => p.ramp3
  | .ramp4 => p.ramp4

/-- Replaces the value for one station. -/
def PerStation.set {α : Type} (p : PerStation α) (st : Station) (a : α) : PerStation α :=
  match st with
  | .loading => { p with loading := a }
  | .yard => { p with yard := a }
  | .ramp1 => { p with ramp1 := a }
  | .ramp2 => { p with ramp2 := a }
  | .ramp3 => { p with ramp3 := a }
  | .ramp4 => { p with ramp4 := a }

/-- The six stations in the order of their numbers. -/
def allStations : List Station := [.loading, .yard, .ramp1, .ramp2, .ramp3, .ramp4]

/-- A value for each station. -/
def PerStation.of {α : Type} (f : Station → α) : PerStation α where
  loading := f .loading
  yard := f .yard
  ramp1 := f .ramp1
  ramp2 := f .ramp2
  ramp3 := f .ramp3
  ramp4 := f .ramp4

/-- Station numbers (Table 0-2). -/
def stationNumber : Station → Nat
  | .loading => 1
  | .yard => 2
  | .ramp1 => 3
  | .ramp2 => 4
  | .ramp3 => 5
  | .ramp4 => 6

/-- The station of a number, if there is one. -/
def stationOf (n : Nat) : Option Station := allStations.find? fun st => stationNumber st == n

/-- The ramp a ramp station serves: ramp k is served by station k + 2 (spec/00 0.2). -/
def rampOf : Station → Option Nat
  | .loading => none
  | .yard => none
  | .ramp1 => some 1
  | .ramp2 => some 2
  | .ramp3 => some 3
  | .ramp4 => some 4

/-- The station that serves a ramp. -/
def rampStation (r : Nat) : Option Station := allStations.find? fun st => rampOf st == some r

/-! Integers, high byte first -/

/-- One byte. -/
def u8 (n : Nat) : List Byte := [BitVec.ofNat 8 n]

/-- Two bytes, unsigned. -/
def u16 (n : Nat) : List Byte := [BitVec.ofNat 8 (n / 256), BitVec.ofNat 8 n]

/-- Four bytes, unsigned. -/
def u32 (n : Nat) : List Byte :=
  [BitVec.ofNat 8 (n / 16777216), BitVec.ofNat 8 (n / 65536), BitVec.ofNat 8 (n / 256),
    BitVec.ofNat 8 n]

/-- Two bytes, two's complement. -/
def i16 (z : Int) : List Byte := u16 (z % 65536).toNat

/-- Four bytes, two's complement. -/
def i32 (z : Int) : List Byte := u32 (z % 4294967296).toNat

/-- `len` bytes of a payload from byte `at_`. -/
def field (p : List Byte) (at_ len : Nat) : List Byte := (p.drop at_).take len

/-- The unsigned value of bytes, high byte first. -/
def natOf (bs : List Byte) : Nat := bs.foldl (fun acc b => acc * 256 + b.toNat) 0

/-- The two's complement value of bytes, high byte first. -/
def intOf (bs : List Byte) : Int :=
  if 2 * natOf bs < 256 ^ bs.length then (natOf bs : Int)
  else (natOf bs : Int) - (256 ^ bs.length : Nat)

/-! Bookings -/

/-- A character a booking may hold: 0 to 9, A to Z, hyphen (spec/00 0.4.2). -/
def bookingChar (b : Byte) : Bool :=
  (decide (48 ≤ b.toNat) && decide (b.toNat ≤ 57)) ||
    (decide (65 ≤ b.toNat) && decide (b.toNat ≤ 90)) || b == 45

/-- A well-formed booking: 1 to 10 permitted characters (R46). -/
def bookingOk (b : Booking) : Bool :=
  decide (1 ≤ b.length) && decide (b.length ≤ 10) && b.all bookingChar

/-- Ten bytes: the characters, then bytes of 0. -/
def encBooking (b : Booking) : List Byte := b ++ List.replicate (10 - b.length) 0

/-- Reads a ten-byte booking field; `none` where it is malformed in the sense of R46. -/
def decBooking (bs : List Byte) : Option Booking :=
  let chars := bs.takeWhile fun b => b != 0
  if bookingOk chars && (bs.drop chars.length).all (fun b => b == 0) then some chars else none

/-! Enumeration codes (Table 12-3; otherwise 1, 2, 3 in the order of the defining table) -/

/-- Two-valued fields: YES 1, NO 2; set 1, clear 2; asserted 1, deasserted 2; present 1, absent 2. -/
def flagCode (b : Bool) : Nat := if b then 1 else 2

def flagOf (n : Nat) : Option Bool :=
  if n = 1 then some true else if n = 2 then some false else none

def kindCode : UnitKind → Nat
  | .trailer => 1 | .rigid => 2 | .car => 3 | .cassette => 4

def kindOf (n : Nat) : Option UnitKind :=
  if n = 1 then some .trailer else if n = 2 then some .rigid else if n = 3 then some .car
  else if n = 4 then some .cassette else none

def dgCode : Option DgGroup → Nat
  | none => 0 | some .a => 1 | some .b => 2 | some .c => 3 | some .d => 4

def dgOf (n : Nat) : Option (Option DgGroup) :=
  if n = 0 then some none else if n = 1 then some (some .a) else if n = 2 then some (some .b)
  else if n = 3 then some (some .c) else if n = 4 then some (some .d) else none

def entryStateCode : EntryState → Nat
  | .reserved => 1 | .stowed => 2 | .leaving => 3

def unitStateCode : UnitState → Nat
  | .announced => 1 | .waiting => 2 | .reserved => 3 | .check => 4 | .excluded => 5

def moveKindCode : MoveKind → Nat
  | .load => 1 | .discharge => 2

def directionCode : Direction → Nat
  | .fore => 0 | .aft => 1

def directionOf (n : Nat) : Option Direction :=
  if n = 0 then some .fore else if n = 1 then some .aft else none

def positionCode : Option Position → Nat
  | none => 0 | some .raised => 1 | some .mid => 2 | some .lowered => 3

def positionOf (n : Nat) : Option Position :=
  if n = 1 then some .raised else if n = 2 then some .mid else if n = 3 then some .lowered else none

def fillCode : Fill → Nat
  | .openFill => 1 | .full => 2 | .filling => 3

def displayedCode : Displayed → Nat
  | .away => 1 | .moving => 2 | .check => 3 | .closed => 4 | .openLane => 5 | .filling => 6
  | .full => 7

def lampCode : Lamp → Nat
  | .green => 1 | .red => 2 | .dark => 3

def sectStateCode : SectState → Nat
  | .atPosition => 1 | .movePending => 2 | .moving => 3 | .fault => 4

def faultCauseCode : FaultCause → Nat
  | .timeout => 1 | .wrongInput => 2 | .multipleInputs => 3 | .inputLost => 4 | .inputChanged => 5
  | .powerDown => 6 | .start => 7

def sectCauseCode : SectCause → Nat
  | .move => 1 | .waitOver => 2 | .cancel => 3 | .fault c => 3 + faultCauseCode c
  | .arrival => 11 | .clearFault => 12

def monitorStateCode : MonitorState → Nat
  | .off => 1 | .stale => 2 | .rail => 3 | .active => 4

def modeCode : Mode → Nat
  | .profile => 1 | .run => 2 | .recovery => 3 | .powerDown => 4

def modeCauseCode : ModeCause → Nat
  | .cold => 1 | .coldAfterLoss => 2 | .warm => 3 | .sealed => 4 | .clearPlan => 5 | .resume => 6
  | .planLock => 7 | .powerRestored => 8

def presenceCauseCode : PresenceCause → Nat
  | .frame => 1 | .quiet => 2 | .lineReady => 3 | .reset => 4

/-- Table 12-5: the fourteen reasons by their order, HEEL_STOP 15. -/
def waitReasonCode : WaitReason → Nat
  | .mask => 1 | .sect => 2 | .state => 3 | .busy => 4 | .limit => 5 | .kind => 6 | .length => 7
  | .height => 8 | .order => 9 | .reefer => 10 | .dg => 11 | .laneMass => 12 | .zoneMass => 13
  | .heel => 14 | .heelStop => 15

/-- Notice codes C0 to D1, in the order of Table 10-1 (Table 12-2). -/
def noticeCode : NoticeKind → Nat
  | .assigned => 0xC0 | .expired => 0xC1 | .excluded => 0xC2 | .shutOut => 0xC3
  | .withdrawn => 0xC4 | .unitStowed => 0xC5 | .unitDischarged => 0xC6 | .unitExcluded => 0xC7
  | .unannouncedUnit => 0xC8 | .laneState => 0xC9 | .limitBreach => 0xCA | .bandExceeded => 0xCB
  | .heelStop => 0xCC | .monitorState => 0xCD | .sectionState => 0xCE | .stationPresence => 0xCF
  | .mode => 0xD0 | .cutoffReached => 0xD1

/-- The thirteen broadcast kinds, in the order of Table 10-1. -/
def broadcastKinds : List NoticeKind :=
  [.unitStowed, .unitDischarged, .unitExcluded, .unannouncedUnit, .laneState, .limitBreach,
    .bandExceeded, .heelStop, .monitorState, .sectionState, .stationPresence, .mode, .cutoffReached]

/-- The broadcast kind of a code, if it names one (R160, R171). -/
def broadcastOf (n : Nat) : Option NoticeKind := broadcastKinds.find? fun k => noticeCode k == n

/-! Message kinds (Table 12-2) -/

/-- Whether a kind code names a request (R171). -/
def isRequestKind (k : Nat) : Bool :=
  (decide (0x01 ≤ k) && decide (k ≤ 0x15)) || (decide (0x20 ≤ k) && decide (k ≤ 0x23)) ||
    (decide (0x30 ≤ k) && decide (k ≤ 0x36)) || (decide (0x40 ≤ k) && decide (k ≤ 0x42)) ||
    (decide (0x50 ≤ k) && decide (k ≤ 0x55))

/-! Records as payload bytes -/

def kindSetCode (k : KindSet) : Nat :=
  (if k.trailer then 1 else 0) + (if k.rigid then 2 else 0) + (if k.car then 4 else 0) +
    (if k.cassette then 8 else 0)

/-- Bit n − 1 for the kind of code n; bits above the four kinds, and the empty set, name no set. -/
def kindSetOf (n : Nat) : Option KindSet :=
  if 1 ≤ n ∧ n ≤ 15 then
    some { trailer := n % 2 = 1, rigid := n / 2 % 2 = 1, car := n / 4 % 2 = 1,
           cassette := n / 8 % 2 = 1 }
  else none

def encRelation : Relation → List Byte
  | .none => u8 1 ++ u8 0
  | .on s => u8 2 ++ u8 s
  | .beneath s => u8 3 ++ u8 s

/-- NONE goes with section number 0, ON and BENEATH with a section from 1 to 6. -/
def relationOf (code sect : Nat) : Option Relation :=
  if code = 1 ∧ sect = 0 then some .none
  else if code = 2 ∧ 1 ≤ sect ∧ sect ≤ Config.sectionCount then some (.on sect)
  else if code = 3 ∧ 1 ≤ sect ∧ sect ≤ Config.sectionCount then some (.beneath sect)
  else none

/-- The flags byte: reefer in the least significant bit, unannounced in the next (Table 12-3). -/
def flagsCode (reefer unannounced : Bool) : Nat :=
  (if reefer then 1 else 0) + (if unannounced then 2 else 0)

/-- A lane profile in the order of Table 1-2 (18 bytes). -/
def encLaneProfile (l : LaneProfile) : List Byte :=
  u8 l.deck ++ u8 l.row ++ u16 l.length ++ u16 l.closedEnd ++ u8 (directionCode l.direction) ++
    i16 l.arm ++ u16 l.baseClearance ++ u16 l.massCap ++ u8 l.sockets ++
    u8 (flagCode l.dgPermitted) ++ u8 (kindSetCode l.kinds) ++ encRelation l.relation

/-- The unit fields 2 to 8 in ten bytes (R174), with the unannounced bit given. -/
def encUnitFields (u : UnitFields) (unannounced : Bool) : List Byte :=
  u8 (kindCode u.kind) ++ u16 u.length ++ u16 (u.height.getD 0) ++ u16 u.mass ++ u8 (dgCode u.dg) ++
    u8 (flagsCode u.reefer unannounced) ++ u8 u.port

/-- The unit fields of an entry or LOAD check record in the same ten bytes. -/
def encUnitBody (u : UnitBody) : List Byte :=
  u8 (kindCode u.kind) ++ u16 u.length ++ u16 u.height ++ u16 u.mass ++ u8 (dgCode u.dg) ++
    u8 (flagsCode u.reefer u.unannounced) ++ u8 u.port

/-- The lane entry record (Table 12-6, 23 bytes). -/
def encEntry (e : Entry) : List Byte :=
  encBooking e.booking ++ encUnitBody e.unit ++ u16 e.offset ++ u8 (entryStateCode e.state)

/-- A list as a count byte followed by its elements (R173). -/
def encList {α : Type} (enc : α → List Byte) (xs : List α) : List Byte := u8 xs.length ++ xs.flatMap enc

/-- A reason list: a pair count, then the pairs (R173). -/
def encReasons (rs : Reasons) : List Byte := encList (fun p => u8 (waitReasonCode p.1) ++ u8 p.2) rs

/-- An optional number for which 0 is no value. -/
def optNat (o : Option Nat) : Nat := o.getD 0

/-- An optional heel: a presence byte, then the value or 0 (R172). -/
def encHeelOpt (o : Option Int) : List Byte :=
  match o with
  | some z => u8 1 ++ i16 z
  | none => u8 0 ++ i16 0

/-- A list of numbers of one byte each (R173). -/
def encNums (ns : List Nat) : List Byte := encList u8 ns

/-! Unit descriptions -/

/-- The decoded fields of a unit description, each `none` where its code is outside its set. -/
structure RawUnit where
  kind : Option UnitKind
  length : Nat
  height : Nat
  mass : Nat
  dg : Option (Option DgGroup)
  flags : Nat
  port : Nat
  deriving DecidableEq, Repr

/-- Reads the ten bytes of a unit description (R174). -/
def rawUnit (p : List Byte) : RawUnit where
  kind := kindOf (natOf (field p 0 1))
  length := natOf (field p 1 2)
  height := natOf (field p 3 2)
  mass := natOf (field p 5 2)
  dg := dgOf (natOf (field p 7 1))
  flags := natOf (field p 8 1)
  port := natOf (field p 9 1)

/-- The first field of a description that fails Table 3-1, by its number (R46, R50). The unannounced
bit of the flags is ignored; the bits above it are 0 in every code of the flags byte. -/
def RawUnit.badField (u : RawUnit) : Option Nat :=
  if u.kind.isNone then some 2
  else if u.length < 30 ∨ 200 < u.length then some 3
  else if u.height ≠ 0 ∧ (u.height < 100 ∨ 500 < u.height) then some 4
  else if u.mass < 1 ∨ 700 < u.mass then some 5
  else if u.dg.isNone then some 6
  else if 3 < u.flags then some 7
  else if u.port < 1 ∨ 15 < u.port then some 8
  else none

/-- The unit fields of a description whose fields all pass. -/
def RawUnit.fields (u : RawUnit) : UnitFields where
  kind := u.kind.getD .trailer
  length := u.length
  height := if u.height = 0 then none else some u.height
  mass := u.mass
  dg := u.dg.getD none
  reefer := u.flags % 2 = 1
  port := u.port

/-! Units -/

/-- Height defaults by kind (Table 3-2). -/
def defaultHeight : UnitKind → Nat
  | .trailer => 410 | .rigid => 400 | .car => 180 | .cassette => 300

/-- The effective height (R41). -/
def effectiveHeight (u : UnitFields) : Nat := u.height.getD (defaultHeight u.kind)

/-- The fields the Lane Map copies from a record into an entry (R18, R41, R50). -/
def UnitRecord.body (r : UnitRecord) : UnitBody where
  kind := r.fields.kind
  length := r.fields.length
  height := effectiveHeight r.fields
  mass := r.fields.mass
  dg := r.fields.dg
  reefer := r.fields.reefer
  port := r.fields.port
  unannounced := r.unannounced

/-- A unit record as a reply carries it: the booking, fields 2 to 8 with the flags byte, the state and
the effective height (R47, R52). That the unannounced flag stands in the flags byte, ahead of the discharge
port, and not behind field 8 is the model's choice (notes/assumptions/10.md). -/
def encRecord (r : UnitRecord) : List Byte :=
  encBooking r.booking ++ encUnitFields r.fields r.unannounced ++ u8 (unitStateCode r.state) ++
    u16 (effectiveHeight r.fields)

end Sys2Proof.Machine
end

