-- ==== Sys2Proof/Machine/Flags.lean ====
section
/-! DEFINITION. What follows from the state: modes, lane geometry and displayed states (spec/01, 02),
section clearances (spec/08), envelopes and limits (spec/04), monitor state and heels (spec/04), the
outputs (spec/02 R33, spec/08 R139). Nothing here is stored (notes/assumptions/27.md). -/

namespace Sys2Proof.Machine

/-! Modes -/

/-- The controller has supply and its reset input is released (R165). -/
def State.awake (s : State) : Bool := s.control.supplied && !s.control.resetInput

/-- The controller takes frames and events: awake and not in POWER_DOWN (R165, R168). -/
def State.working (s : State) : Bool := s.awake && !s.control.down

/-- The device mode (R164). -/
def State.mode (s : State) : Mode :=
  if s.control.down then .powerDown
  else match s.control.work with
    | .profile => .profile
    | .run => .run
    | .recovery => .recovery

/-- RUN or RECOVERY. -/
def State.planMode (s : State) : Bool :=
  decide (s.mode = .run) || decide (s.mode = .recovery)

/-! Positions along the ship -/

/-- The station of the point at distance `x` from the closed end (R2). -/
def LaneProfile.stationAt (l : LaneProfile) (x : Nat) : Int :=
  match l.direction with
  | .fore => (l.closedEnd : Int) + x
  | .aft => (l.closedEnd : Int) - x

/-- A span of stations, lower end first. -/
structure Span where
  lo : Int
  hi : Int
  deriving DecidableEq, Repr

/-- The span between the points at distances `x` and `x + len` (R2, R21). -/
def LaneProfile.span (l : LaneProfile) (x len : Nat) : Span :=
  match l.direction with
  | .fore => { lo := l.stationAt x, hi := l.stationAt (x + len) }
  | .aft => { lo := l.stationAt (x + len), hi := l.stationAt x }

/-- The extent of the lane (R2). -/
def LaneProfile.extent (l : LaneProfile) : Span := l.span 0 l.length

/-- The lane lies within the ship (R2). -/
def LaneProfile.fits (l : LaneProfile) : Bool :=
  match l.direction with
  | .fore => decide (l.closedEnd + l.length ≤ 2400)
  | .aft => decide (l.length ≤ l.closedEnd)

/-- Two spans have more than one station in common (spec/01 1.2). -/
def Span.overlaps (a b : Span) : Bool := decide (max a.lo b.lo < min a.hi b.hi)

/-- The distance between two extents: 0 when they share a station (R89). -/
def Span.distance (a b : Span) : Int := max 0 (max (b.lo - a.hi) (a.lo - b.hi))

/-- The slot centre of a unit of length `len` at `offset` (R21). -/
def LaneProfile.centre (l : LaneProfile) (offset len : Nat) : Int := l.stationAt (offset + len / 2)

/-- The zone of a station on a deck: the lowest-numbered zone whose stretch holds it (R6). -/
def zoneAt (zones : Table Zone) (deck : Nat) (c : Int) : Option Nat :=
  (zones.find? fun p =>
    decide (p.2.deck = deck) && decide ((p.2.aft : Int) ≤ c) && decide (c < (p.2.fore : Int))).map (·.1)

/-- The zone of a slot (R6). -/
def State.slotZone (s : State) (l : LaneProfile) (offset len : Nat) : Option Nat :=
  zoneAt s.zones l.deck (l.centre offset len)

/-! Lane attributes -/

/-- The end of a lane with the gap `g` (R21). -/
def endOf (g : Nat) (es : List Entry) : Nat := (es.map fun e => e.unit.length + g).sum

def State.laneEnd (s : State) (l : Lane) : Nat := endOf s.gap l.entries

/-- The fill state (R24): lane length − end < 30 is full. -/
def State.fill (s : State) (l : Lane) : Fill :=
  if l.entries.isEmpty then .openFill
  else if (l.profile.length : Int) - s.laneEnd l < 30 then .full
  else .filling

/-- In service: the list holds a RESERVED or LEAVING entry (R23). -/
def Lane.inService (l : Lane) : Bool := l.entries.any fun e => decide (e.state ≠ .stowed)

/-- The reefer count (R23). -/
def Lane.reeferCount (l : Lane) : Nat := (l.entries.filter fun e => e.unit.reefer).length

/-- The section a lane relates to (R27). -/
def Relation.section? : Relation → Option Nat
  | .none => Option.none
  | .on n => some n
  | .beneath n => some n

/-- The lane is affected by section `n`: ON or BENEATH it (R27, R137). -/
def Lane.affectedBy (l : Lane) (n : Nat) : Bool := decide (l.profile.relation.section? = some n)

/-- The lane lies ON section `n`. -/
def Lane.isOn (l : Lane) (n : Nat) : Bool := decide (l.profile.relation = .on n)

/-- The lane lies BENEATH section `n`. -/
def Lane.isBeneath (l : Lane) (n : Nat) : Bool := decide (l.profile.relation = .beneath n)

/-- The section holds its position (R27, R137). -/
def Sect.holds (c : Sect) : Bool := decide (c.state = .atPosition) || decide (c.state = .movePending)

def Clearances.above (c : Clearances) : Position → Nat
  | .raised => c.aboveRaised
  | .mid => c.aboveMid
  | .lowered => c.aboveLowered

def Clearances.beneath (c : Clearances) : Position → Nat
  | .raised => c.beneathRaised
  | .mid => c.beneathMid
  | .lowered => c.beneathLowered

/-- The clearance a lane has from section `n` at position `p` (R5). -/
def Lane.clearanceAt (l : Lane) (c : Clearances) (n : Nat) (p : Position) : Nat :=
  if l.isOn n then c.above p else c.beneath p

/-- The section of a lane, if its relation names a defined one. -/
def State.laneSection (s : State) (l : Lane) : Option Sect :=
  l.profile.relation.section?.bind s.sections.get

/-- The away condition (R27). -/
def State.laneAway (s : State) (l : Lane) : Bool :=
  match l.profile.relation with
  | .on n => match s.sections.get n with
    | some c => c.holds && decide (c.position = some .raised)
    | none => false
  | _ => false

/-- The moving condition (R27). -/
def State.laneMoving (s : State) (l : Lane) : Bool :=
  match s.laneSection l with
  | some c => !c.holds
  | none => false

/-- The lane is on or beneath a section in MOVE_PENDING (R86). -/
def State.laneSectionPending (s : State) (l : Lane) : Bool :=
  match s.laneSection l with
  | some c => decide (c.state = .movePending)
  | none => false

/-- The displayed state: the first row of Table 2-4 that applies (R28). -/
def State.displayed (s : State) (l : Lane) : Displayed :=
  if s.laneAway l then .away
  else if s.laneMoving l then .moving
  else if l.check.isSome then .check
  else if l.closed then .closed
  else match s.fill l with
    | .openFill => .openLane
    | .filling => .filling
    | .full => .full

/-- The lamp aspect of a lane in RUN or RECOVERY (R33). -/
def State.lamp (s : State) (l : Lane) : Lamp :=
  if l.inService then .green
  else match s.displayed l with
    | .full => .red
    | .closed => .red
    | .check => .red
    | .moving => .red
    | .openLane => .dark
    | .filling => .dark
    | .away => .dark

/-- The lamp output of lane `n`: DARK for an undefined lane, in PROFILE, in POWER_DOWN, in reset and
without supply (R1, R33, R39, R165). -/
def State.lampOutput (s : State) (n : Nat) : Lamp :=
  if s.working && s.planMode then
    match s.lanes.get n with
    | some l => s.lamp l
    | none => .dark
  else .dark

/-- The move output of section `n`: the target it carries, or off (R139, R165). -/
def State.moveOutput (s : State) (n : Nat) : Option Position :=
  if s.working && s.planMode then
    match s.sections.get n with
    | some c => if c.state = .moving then c.target else none
    | none => none
  else none

/-- A check record's kind (Table 2-3). -/
def CheckRecord.kind (c : CheckRecord) : MoveKind :=
  match c.content with
  | .load _ => .load
  | .discharge => .discharge

/-- The unit of a LOAD check record. -/
def CheckRecord.unit? (c : CheckRecord) : Option UnitBody :=
  match c.content with
  | .load u => some u
  | .discharge => none

/-- A check record with every field of Table 2-3 in the order of the table, unit fields last where it has
them. That the unannounced flag stands in the flags byte, ahead of the discharge port, and not behind it is
the model's choice (notes/assumptions/10.md). -/
def encCheck (c : CheckRecord) : List Byte :=
  u8 (moveKindCode c.kind) ++ encBooking c.booking ++ u8 c.ramp ++ i32 c.delta ++ u8 (optNat c.zone) ++
    u16 c.offset ++ c.unit?.toList.flatMap encUnitBody

/-- The unit of the lane's LOAD check record, if it carries one. -/
def Lane.loadCheck? (l : Lane) : Option (CheckRecord × UnitBody) :=
  l.check.bind fun c => c.unit?.map fun u => (c, u)

/-- A lane's units: its entries from the closed end, then the unit of its LOAD check record, which
stands at the lane's end (R25, R140). -/
def Lane.units (l : Lane) : List (Booking × UnitBody) :=
  l.entries.map (fun e => (e.booking, e.unit)) ++
    l.loadCheck?.toList.map fun p => (p.1.booking, p.2)

/-- The lane carries a pending movement: a reservation or a check record (R26). -/
def State.pendingMovement (s : State) (n : Nat) (l : Lane) : Bool :=
  l.check.isSome || s.movements.any fun r => decide (r.lane = n)

/-- The lanes affected by section `n`, with their numbers, ascending (R137). -/
def State.affectedLanes (s : State) (n : Nat) : List (Nat × Lane) :=
  s.lanes.filter fun p => p.2.affectedBy n

/-- The affected lanes of section `n` that carry a pending movement (R141). -/
def State.pendingLanes (s : State) (n : Nat) : List Nat :=
  ((s.affectedLanes n).filter fun p => s.pendingMovement p.1 p.2).map (·.1)

/-! Section inputs -/

/-- The inputs of section `n`. -/
def State.sectionInputs (s : State) (n : Nat) : Inputs :=
  (s.inputs.get n).getD { raised := false, mid := false, lowered := false }

/-- How many inputs are asserted. -/
def inputCount (i : Inputs) : Nat :=
  (if i.raised then 1 else 0) + (if i.mid then 1 else 0) + (if i.lowered then 1 else 0)

/-- The position the inputs show: one asserted and the other two not (R138). -/
def shownPosition (i : Inputs) : Option Position :=
  match i.raised, i.mid, i.lowered with
  | true, false, false => some .raised
  | false, true, false => some .mid
  | false, false, true => some .lowered
  | _, _, _ => none

/-- The cause of a sensor fault that inputs find (Table 8-3). -/
def sensorCause (i : Inputs) : FaultCause :=
  if inputCount i = 0 then .inputLost else if inputCount i = 1 then .inputChanged else .multipleInputs

/-! Ramps -/

/-- The row of a fitted ramp: defined in the sealed profile (R7). -/
def State.fittedRamp (s : State) (r : Nat) : Option Ramp :=
  if s.isSealed then s.ramps.get r else none

/-- The record of a fitted section: defined in the sealed profile (R8). -/
def State.fittedSection (s : State) (n : Nat) : Option Sect :=
  if s.isSealed then s.sections.get n else none

/-- The reach list of a station's ramp; a ramp that is not fitted has none (R31). -/
def State.reachOf (s : State) (st : Station) : List Nat :=
  match (rampOf st).bind s.fittedRamp with
  | some r => r.reach
  | none => []

/-! Stability Account -/

/-- The allowance in effect: H while the loading computer station is PRESENT (R59). -/
def State.heff (s : State) : Int := if s.stations.loading.present then s.account.h else 0

/-- The upper band limit (R59). -/
def State.upperLimit (s : State) : Int := s.account.kp + s.heff

/-- The lower band limit (R59). -/
def State.lowerLimit (s : State) : Int := -(s.account.ks + s.heff)

/-- The upper envelope (R58). -/
def Account.upper (a : Account) : Int := a.tc + a.pPlus

/-- The lower envelope (R58). -/
def Account.lower (a : Account) : Int := a.tc + a.pMinus

/-- U' of R62. -/
def Account.upperWith (a : Account) (d : Int) : Int := if d > 0 then a.upper + d else a.upper

/-- W' of R62. -/
def Account.lowerWith (a : Account) (d : Int) : Int := if d < 0 then a.lower + d else a.lower

/-- The envelope test of R62 for an account, the limits in force and a delta. -/
def State.envelopeOk (s : State) (a : Account) (d : Int) : Bool :=
  (decide (a.upperWith d ≤ s.upperLimit) || decide (d ≤ 0)) &&
    (decide (a.lowerWith d ≥ s.lowerLimit) || decide (d ≥ 0))

/-- The centred figure of R63. -/
def Account.centred (a : Account) (d : Int) : Nat := (a.tc + a.pPlus + a.pMinus + d).natAbs

/-! Heel Monitor -/

/-- The rail condition (R67). -/
def Monitor.railed (m : Monitor) : Bool := decide (m.rail = 4)

/-- The monitor state: the first row of Table 4-4 that applies (R71). -/
def Monitor.state (m : Monitor) : MonitorState :=
  if m.kh = 0 then .off
  else match m.tank with
    | none => .stale
    | some t => if t.stale then .stale else if m.railed then .rail else .active

/-- Division rounded to the nearest integer, a half away from zero (R69, R70). -/
def roundDiv (n : Int) (d : Nat) : Int :=
  let q : Int := ((2 * n.natAbs + d) / (2 * d) : Nat)
  if n < 0 then -q else q

/-- The measured heel: absent with fewer than four samples (R69). -/
def Monitor.measured (m : Monitor) : Option Int :=
  if m.history.length = 4 then some (roundDiv m.history.sum 4) else none

/-- The net moment (R70). -/
def State.netMoment (s : State) : Int :=
  s.account.tc + (match s.monitor.tank with | some t => t.ta | none => 0)

/-- The predicted heel (R70). -/
def State.predicted (s : State) : Int :=
  clampInt (-3000) 3000 (roundDiv (s.netMoment * s.monitor.kh) 16777216)

/-! Bookings in the lanes -/

/-- Where an entry stands: lane number, lane, list position from 1, entry. -/
structure Found where
  laneNo : Nat
  lane : Lane
  position : Nat
  entry : Entry
  deriving DecidableEq, Repr

/-- The entry that holds a booking within one lane. -/
def findInLane (n : Nat) (l : Lane) (b : Booking) : Option Found :=
  ((l.entries.zipIdx 1).find? fun p => decide (p.1.booking = b)).map fun p =>
    { laneNo := n, lane := l, position := p.2, entry := p.1 }

/-- The lane entry that holds a booking, lanes ascending (R52, R96). -/
def State.findEntry (s : State) (b : Booking) : Option Found :=
  s.lanes.findSome? fun p => findInLane p.1 p.2 b

/-- The lane whose LOAD check record holds a booking. -/
def State.findLoadCheck (s : State) (b : Booking) : Option (Nat × CheckRecord) :=
  s.lanes.findSome? fun p =>
    p.2.loadCheck?.bind fun c => if c.1.booking = b then some (p.1, c.1) else none

/-- The register record of a booking (R40). -/
def State.findRecord (s : State) (b : Booking) : Option UnitRecord :=
  s.register.find? fun r => decide (r.booking = b)

end Sys2Proof.Machine
end

