-- ==== Sys2Proof/Machine/Notices.lean ====
section
/-! DEFINITION. Replies and notices (spec/12 R170, R173, spec/10): what they carry, and how a notice is
addressed, placed, held in an overflow slot and released. -/

namespace Sys2Proof.Machine

/-! Replies -/

/-- Refusal reasons, in the order of their codes (Table 12-5). -/
inductive RefuseReason where
  | authority | mode | field | unknown | inUse | full | listFull | busy | suspended | cutoff
  | heelStop | heel | noMovement | mismatch | reach | buried | clearance | loaded | sectionFault
  | noPosition | timePast | conflict | notCheck | stillDivergent | notEmpty | profileInvalid
  deriving DecidableEq, Repr

def refuseCode : RefuseReason → Nat
  | .authority => 1 | .mode => 2 | .field => 3 | .unknown => 4 | .inUse => 5 | .full => 6
  | .listFull => 7 | .busy => 8 | .suspended => 9 | .cutoff => 10 | .heelStop => 11 | .heel => 12
  | .noMovement => 13 | .mismatch => 14 | .reach => 15 | .buried => 16 | .clearance => 17
  | .loaded => 18 | .sectionFault => 19 | .noPosition => 20 | .timePast => 21 | .conflict => 22
  | .notCheck => 23 | .stillDivergent => 24 | .notEmpty => 25 | .profileInvalid => 26

/-- A reply (Table 12-4). -/
inductive Reply where
  | ack (contents : List Byte)
  | refuse (reason : RefuseReason) (detail : List Byte)
  /-- REFUSE FIELD, naming a field and a list position (0 where none). -/
  | refuseField (number position : Nat) (detail : List Byte)
  | assign (lane offset : Nat) (centre : Int) (seq : Nat)
  | wait (position : Nat) (reasons : Reasons)
  deriving DecidableEq, Repr

/-- The reply's frame: the request's tag, and the request's kind as the first payload byte (R170,
R173). -/
def replyFrame (req : Frame) (r : Reply) : Frame :=
  match r with
  | .ack c => { kind := 0x80, tag := req.tag, payload := req.kind :: c }
  | .refuse why d =>
    { kind := 0x81, tag := req.tag, payload := req.kind :: (u8 (refuseCode why) ++ d) }
  | .refuseField n p d =>
    { kind := 0x81, tag := req.tag,
      payload := req.kind :: (u8 (refuseCode .field) ++ u8 n ++ u8 p ++ d) }
  | .assign lane offset centre seq =>
    { kind := 0x82, tag := req.tag,
      payload := req.kind :: (u8 lane ++ u16 offset ++ u16 centre.toNat ++ u32 seq) }
  | .wait pos rs => { kind := 0x83, tag := req.tag, payload := req.kind :: (u8 pos ++ encReasons rs) }

/-! Notices -/

/-- One item of a LIMIT_BREACH (Table 6-5): the envelope, the limit concerned, the amount beyond. -/
structure BreachItem where
  envelope : Int
  limit : Int
  beyond : Int
  deriving DecidableEq, Repr

/-- A notice with its contents (Table 10-1). A directed notice names the ramp whose station it goes
to. -/
inductive Notice where
  | assigned (ramp : Nat) (booking : Booking) (lane offset : Nat) (centre : Int) (seq retries : Nat)
  | expired (ramp : Nat) (kind : MoveKind) (lane : Nat) (booking : Booking) (offset seq : Nat)
  | excluded (ramp : Nat) (booking : Booking) (retries : Nat) (reasons : Reasons)
  | shutOut (ramp : Nat) (booking : Booking) (cutoff : Nat)
  | withdrawn (ramp : Nat) (booking : Booking) (position retries : Nat)
  | unitStowed (booking : Booking) (lane position offset ramp mass : Nat) (delta : Int) (late : Bool)
      (tc : Int)
  | unitDischarged (booking : Booking) (lane ramp mass : Nat) (delta : Int) (late : Bool) (tc : Int)
  | unitExcluded (byCutoff : Bool) (booking : Booking) (ramp : Nat) (reasons : Reasons)
  | unannouncedUnit (booking : Booking) (ramp : Nat) (fields : UnitFields)
  | laneState (lane : Nat) (displayed : Displayed) (inService : Bool) (entries laneEnd : Nat)
      (lamp : Lamp) (revision : Nat)
  | limitBreach (offloaded : Bool) (lane : Nat) (booking : Booking) (items : List BreachItem)
  | bandExceeded (byPresence : Bool) (u w upper lower : Int)
  | heelStop (isSet : Bool) (measured : Option Int) (predicted tolerance : Int) (divergence : Nat)
  | monitorState (now before : MonitorState) (rail : Nat)
  | sectionState (sect : Nat) (before after : SectState) (position target : Option Position)
      (faultHeld : Bool) (cause : SectCause)
  | stationPresence (station : Station) (present : Bool) (cause : PresenceCause)
  | mode (now : Mode) (cause : ModeCause)
  | cutoffReached (cutoff now count : Nat)
  deriving DecidableEq, Repr

def Notice.kind : Notice → NoticeKind
  | .assigned .. => .assigned
  | .expired .. => .expired
  | .excluded .. => .excluded
  | .shutOut .. => .shutOut
  | .withdrawn .. => .withdrawn
  | .unitStowed .. => .unitStowed
  | .unitDischarged .. => .unitDischarged
  | .unitExcluded .. => .unitExcluded
  | .unannouncedUnit .. => .unannouncedUnit
  | .laneState .. => .laneState
  | .limitBreach .. => .limitBreach
  | .bandExceeded .. => .bandExceeded
  | .heelStop .. => .heelStop
  | .monitorState .. => .monitorState
  | .sectionState .. => .sectionState
  | .stationPresence .. => .stationPresence
  | .mode .. => .mode
  | .cutoffReached .. => .cutoffReached

/-- The ramp whose station a directed notice goes to; a broadcast notice names none. -/
def Notice.directedTo : Notice → Option Nat
  | .assigned r .. => some r
  | .expired r .. => some r
  | .excluded r .. => some r
  | .shutOut r .. => some r
  | .withdrawn r .. => some r
  | _ => none

/-- The code of a timing: ON_TIME 1, LATE 2 (R109, R116). -/
def timingCode (late : Bool) : Nat := if late then 2 else 1

/-- HEEL and its figures (Table 6-5). That HEEL takes its reason-list code 14 here is the model's choice
(notes/assumptions/11.md). -/
def encBreach (b : BreachItem) : List Byte :=
  u8 (waitReasonCode .heel) ++ i32 b.envelope ++ i32 b.limit ++ i32 b.beyond

/-- A notice's contents after the merge count (Table 12-7), in the order of Table 10-1. -/
def Notice.content : Notice → List Byte
  | .assigned _ b lane off c seq n =>
    encBooking b ++ u8 lane ++ u16 off ++ u16 c.toNat ++ u32 seq ++ u8 n
  | .expired _ k lane b off seq => u8 (moveKindCode k) ++ u8 lane ++ encBooking b ++ u16 off ++ u32 seq
  | .excluded _ b n rs => encBooking b ++ u8 n ++ encReasons rs
  | .shutOut _ b t => encBooking b ++ u32 t
  | .withdrawn _ b p n => encBooking b ++ u8 p ++ u8 n
  | .unitStowed b lane p off ramp m d late tc =>
    encBooking b ++ u8 lane ++ u8 p ++ u16 off ++ u8 ramp ++ u16 m ++ i32 d ++ u8 (timingCode late) ++
      i32 tc
  | .unitDischarged b lane ramp m d late tc =>
    encBooking b ++ u8 lane ++ u8 ramp ++ u16 m ++ i32 d ++ u8 (timingCode late) ++ i32 tc
  | .unitExcluded byCutoff b ramp rs =>
    u8 (if byCutoff then 2 else 1) ++ encBooking b ++ u8 ramp ++ encReasons rs
  | .unannouncedUnit b ramp f => encBooking b ++ u8 ramp ++ encUnitFields f false
  | .laneState lane d sv n e lamp rev =>
    u8 lane ++ u8 (displayedCode d) ++ u8 (flagCode sv) ++ u8 n ++ u16 e ++ u8 (lampCode lamp) ++
      u16 rev
  | .limitBreach off lane b items =>
    u8 (if off then 2 else 1) ++ u8 lane ++ encBooking b ++ encList encBreach items
  | .bandExceeded byPresence u w upper lower =>
    u8 (if byPresence then 2 else 1) ++ i32 u ++ i32 w ++ i32 upper ++ i32 lower ++
      i32 (max 0 (u - upper)) ++ i32 (max 0 (lower - w))
  | .heelStop isSet a p tol n =>
    u8 (flagCode isSet) ++ encHeelOpt a ++ i16 p ++ i16 tol ++ u8 n
  | .monitorState now before rail => u8 (monitorStateCode now) ++ u8 (monitorStateCode before) ++ u8 rail
  | .sectionState n before after p t held cause =>
    u8 n ++ u8 (sectStateCode before) ++ u8 (sectStateCode after) ++ u8 (positionCode p) ++
      u8 (positionCode t) ++ u8 (flagCode held) ++ u8 (sectCauseCode cause)
  | .stationPresence st here cause =>
    u8 (stationNumber st) ++ u8 (flagCode here) ++ u8 (presenceCauseCode cause)
  | .mode now cause => u8 (modeCode now) ++ u8 (modeCauseCode cause)
  | .cutoffReached t now n => u32 t ++ u32 now ++ u8 n

/-- A notice as a frame: tag 0, the merge count first (R170, Table 12-7). -/
def noticeFrame (k : NoticeKind) (merge : Nat) (content : List Byte) : Frame where
  kind := BitVec.ofNat 8 (noticeCode k)
  tag := 0
  payload := u8 merge ++ content

/-! Placement -/

/-- A slot that already holds the kind takes the newer content and counts it (R161). -/
def mergeSlot (slots : List Slot) (k : NoticeKind) (content : List Byte) : List Slot :=
  slots.map fun s =>
    if s.kind = k then { s with content := content, merge := min 255 (s.merge + 1) } else s

/-- Places one notice on a link (R161); the release that follows it is `Link.release`. -/
def Link.place (l : Link) (k : NoticeKind) (content : List Byte) : Link :=
  if l.queue.length < Config.queueSize ∧ l.slots = [] then
    { l with queue := l.queue ++ [noticeFrame k 1 content] }
  else if l.slots.any fun s => decide (s.kind = k) then
    { l with slots := mergeSlot l.slots k content }
  else { l with slots := l.slots ++ [{ kind := k, content := content, merge := 1 }] }

/-- Releases held slots, oldest first, while the queue has a free place (R162). -/
def releaseInto (queue : List Frame) (slots : List Slot) : List Frame × List Slot :=
  match slots with
  | [] => (queue, [])
  | s :: rest =>
    if queue.length < Config.queueSize then
      releaseInto (queue ++ [noticeFrame s.kind s.merge s.content]) rest
    else (queue, s :: rest)

/-- The release after an event of a link: while the mailbox holds a request, a freed place is left for
it (R162). -/
def Link.release (l : Link) : Link :=
  if l.mailbox.isEmpty then
    { l with queue := (releaseInto l.queue l.slots).1, slots := (releaseInto l.queue l.slots).2 }
  else l

/-- Whether a notice is addressed to a station (R159): a directed one to the station of its ramp, a
broadcast one to every station whose subscription set holds its kind. Presence does not enter. -/
def Notice.goesTo (n : Notice) (stations : PerStation StationRow) (st : Station) : Bool :=
  match n.directedTo with
  | some r => decide (rampStation r = some st)
  | none => (stations.get st).subscribed.contains n.kind

/-- Sends a notice: one copy placed on each link it is addressed to (R159). A placement is an event of its
link, so held slots are released behind it (R162). The first notice behind a request that is taken still
finds the slots held (notes/assumptions/34.md). -/
def State.send (s : State) (n : Notice) : State :=
  { s with
    links := PerStation.of fun st =>
      if n.goesTo s.stations st then ((s.links.get st).place n.kind n.content).release
      else s.links.get st }

/-- Sends notices in order. -/
def State.sendAll (s : State) (ns : List Notice) : State := ns.foldl State.send s

/-- Releases held slots on every link, as the end of an event does (R162). A link whose slots, queue and
mailbox an event left as they were has nothing to release: notes/assumptions/21.md. -/
def State.releaseAll (s : State) : State :=
  { s with links := PerStation.of fun st => (s.links.get st).release }

/-- Replaces one link. -/
def State.setLink (s : State) (st : Station) (l : Link) : State :=
  { s with links := s.links.set st l }

/-- Places a reply in a station's outbound queue (R152). -/
def State.reply (s : State) (st : Station) (f : Frame) : State :=
  s.setLink st { s.links.get st with queue := (s.links.get st).queue ++ [f] }

end Sys2Proof.Machine
end

