-- ==== Sys2Proof/Machine/Ops.lean ====
section
/-! DEFINITION. The named operations on the controller's blocks: the entry operations of Table 2-2 with
the account changes of Table 4-1 (spec/02 R22, spec/04 R57), the register and the Movement Table
(spec/03, 06), the deck sections (spec/08), presence (spec/09 R155), the retained image (spec/11
R169). None of them sends a notice; those that give rise to one return it. -/

namespace Sys2Proof.Machine

/-! Account arithmetic -/

/-- A movement's delta becomes pending (R56, R57). -/
def Account.addDelta (a : Account) (d : Int) : Account :=
  { a with pPlus := a.pPlus + max d 0, pMinus := a.pMinus + min d 0 }

/-- A pending delta is removed from the sum it stands in (R57). -/
def Account.dropDelta (a : Account) (d : Int) : Account :=
  { a with pPlus := a.pPlus - max d 0, pMinus := a.pMinus - min d 0 }

/-- A pending delta passes into the confirmed moment (R57). -/
def Account.confirmDelta (a : Account) (d : Int) : Account :=
  { a.dropDelta d with tc := a.tc + d }

/-- Changes the masses of a movement's zone; a movement with no zone changes none (R57). -/
def onZone (zones : Table Zone) (z : Option Nat) (f : Zone → Zone) : Table Zone :=
  match z with
  | some n => zones.modify n f
  | none => zones

def Zone.addPending (m : Nat) (z : Zone) : Zone := { z with pendingLoad := z.pendingLoad + m }
def Zone.dropPending (m : Nat) (z : Zone) : Zone := { z with pendingLoad := z.pendingLoad - m }
def Zone.confirm (m : Nat) (z : Zone) : Zone :=
  { z with pendingLoad := z.pendingLoad - m, confirmed := z.confirmed + m }
def Zone.unload (m : Nat) (z : Zone) : Zone := { z with confirmed := z.confirmed - m }

/-! Entry lists -/

/-- The open-end entry takes a state. -/
def setLast (es : List Entry) (st : EntryState) : List Entry :=
  match es.getLast? with
  | some e => es.dropLast ++ [{ e with state := st }]
  | none => []

/-- The open-end entry of lane `n`. -/
def State.lastEntry (s : State) (n : Nat) : Option Entry := (s.lanes.get n).bind fun l => l.entries.getLast?

/-- The mass of the open-end entry of lane `n`. -/
def State.lastMass (s : State) (n : Nat) : Nat :=
  match s.lastEntry n with
  | some e => e.unit.mass
  | none => 0

/-- Changes one lane. -/
def State.onLane (s : State) (n : Nat) (f : Lane → Lane) : State :=
  { s with lanes := s.lanes.modify n f }

/-! The entry operations of Table 2-2, each with its row of Table 4-1 -/

/-- Place: a RESERVED entry joins after the last; one pool entry is taken. -/
def State.opPlace (s : State) (n : Nat) (e : Entry) (d : Int) (z : Option Nat) : State :=
  { s.onLane n (fun l => { l with entries := l.entries ++ [e] }) with
    poolInUse := s.poolInUse + 1
    account := s.account.addDelta d
    zones := onZone s.zones z (Zone.addPending e.unit.mass) }

/-- Stow: the last entry becomes STOWED. -/
def State.opStow (s : State) (n : Nat) (d : Int) (z : Option Nat) : State :=
  let m := s.lastMass n
  { s.onLane n (fun l => { l with entries := setLast l.entries .stowed, mass := l.mass + m }) with
    account := s.account.confirmDelta d
    zones := onZone s.zones z (Zone.confirm m) }

/-- Back out: the last entry is removed; its pool entry is returned. -/
def State.opBackOut (s : State) (n : Nat) (d : Int) (z : Option Nat) : State :=
  let m := s.lastMass n
  { s.onLane n (fun l => { l with entries := l.entries.dropLast }) with
    poolInUse := s.poolInUse - 1
    account := s.account.dropDelta d
    zones := onZone s.zones z (Zone.dropPending m) }

/-- Lapse load: the last entry passes into a LOAD check record. -/
def State.opLapseLoad (s : State) (n ramp : Nat) (d : Int) (z : Option Nat) : State :=
  s.onLane n fun l =>
    match l.entries.getLast? with
    | some e =>
      { l with
        entries := l.entries.dropLast
        check := some { booking := e.booking, ramp := ramp, delta := d, zone := z,
                        offset := e.offset, content := .load e.unit } }
    | none => l

/-- Stow late: a STOWED entry at the check record's offset; the check record is removed. -/
def State.opStowLate (s : State) (n : Nat) (c : CheckRecord) (u : UnitBody) : State :=
  { s.onLane n (fun l =>
      { l with
        entries := l.entries ++ [{ booking := c.booking, unit := u, offset := c.offset, state := .stowed }]
        check := none
        mass := l.mass + u.mass }) with
    account := s.account.confirmDelta c.delta
    zones := onZone s.zones c.zone (Zone.confirm u.mass) }

/-- Drop load check: the check record is removed; its pool entry is returned. -/
def State.opDropLoadCheck (s : State) (n : Nat) (c : CheckRecord) (u : UnitBody) : State :=
  { s.onLane n (fun l => { l with check := none }) with
    poolInUse := s.poolInUse - 1
    account := s.account.dropDelta c.delta
    zones := onZone s.zones c.zone (Zone.dropPending u.mass) }

/-- Release: the last entry becomes LEAVING. -/
def State.opRelease (s : State) (n : Nat) (d : Int) : State :=
  { s.onLane n (fun l => { l with entries := setLast l.entries .leaving }) with
    account := s.account.addDelta d }

/-- Offload: the last entry is removed; its pool entry is returned. -/
def State.opOffload (s : State) (n : Nat) (d : Int) (z : Option Nat) : State :=
  let m := s.lastMass n
  { s.onLane n (fun l => { l with entries := l.entries.dropLast, mass := l.mass - m }) with
    poolInUse := s.poolInUse - 1
    account := s.account.confirmDelta d
    zones := onZone s.zones z (Zone.unload m) }

/-- Keep: the last entry becomes STOWED again. -/
def State.opKeep (s : State) (n : Nat) (d : Int) : State :=
  { s.onLane n (fun l => { l with entries := setLast l.entries .stowed }) with
    account := s.account.dropDelta d }

/-- Lapse discharge: the last entry becomes STOWED again; a DISCHARGE check record is created. -/
def State.opLapseDischarge (s : State) (n ramp : Nat) (d : Int) (z : Option Nat) : State :=
  s.onLane n fun l =>
    match l.entries.getLast? with
    | some e =>
      { l with
        entries := setLast l.entries .stowed
        check := some { booking := e.booking, ramp := ramp, delta := d, zone := z,
                        offset := e.offset, content := .discharge } }
    | none => l

/-- Offload late: the last entry and the check record are removed; the pool entry is returned. -/
def State.opOffloadLate (s : State) (n : Nat) (c : CheckRecord) : State :=
  let m := s.lastMass n
  { s.onLane n (fun l =>
      { l with entries := l.entries.dropLast, check := none, mass := l.mass - m }) with
    poolInUse := s.poolInUse - 1
    account := s.account.confirmDelta c.delta
    zones := onZone s.zones c.zone (Zone.unload m) }

/-- Drop discharge check: the check record is removed; the last entry stays STOWED. -/
def State.opDropDischargeCheck (s : State) (n : Nat) (c : CheckRecord) : State :=
  { s.onLane n (fun l => { l with check := none }) with
    account := s.account.dropDelta c.delta }

/-! Unit Register -/

/-- A record takes a state (R45). -/
def State.setUnitState (s : State) (b : Booking) (st : UnitState) : State :=
  { s with register := s.register.map fun r => if r.booking = b then { r with state := st } else r }

/-- A record leaves the register. -/
def State.removeRecord (s : State) (b : Booking) : State :=
  { s with register := s.register.filter fun r => decide (r.booking ≠ b) }

/-- Creates a record, or replaces the record under its booking in place. -/
def State.putRecord (s : State) (r : UnitRecord) : State :=
  if s.register.any fun q => decide (q.booking = r.booking) then
    { s with register := s.register.map fun q => if q.booking = r.booking then r else q }
  else { s with register := s.register ++ [r] }

/-! Movement Table -/

/-- The reservation on a lane; a lane has at most one (R101). -/
def State.reservationOn (s : State) (n : Nat) : Option Reservation :=
  s.movements.find? fun r => decide (r.lane = n)

/-- The oldest reservation of a ramp and kind (R101). -/
def State.oldest (s : State) (ramp : Nat) (k : MoveKind) : Option Reservation :=
  s.movements.find? fun r => decide (r.ramp = ramp) && decide (r.kind = k)

/-- Changes one ramp's row. -/
def State.onRamp (s : State) (r : Nat) (f : Ramp → Ramp) : State :=
  { s with ramps := s.ramps.modify r f }

/-- A reservation leaves the list from whatever position it holds, and its ramp's count falls by one
(R79, R102). -/
def State.endReservation (s : State) (r : Reservation) : State :=
  { s.onRamp r.ramp (fun p => { p with count := p.count - 1 }) with
    movements := s.movements.eraseP fun q => decide (q.lane = r.lane) }

/-- A reservation joins the list at its newest end with the next admission sequence number, and its
ramp's count rises by one (R79, R93, R99, R101). -/
def State.addReservation (s : State) (r : Reservation) : State :=
  { s.onRamp r.ramp (fun p => { p with count := p.count + 1 }) with
    movements := s.movements ++ [r]
    seqNext := if s.seqNext = Config.maxTime then 1 else s.seqNext + 1 }

/-! Waiting List -/

/-- The element of a booking leaves the list (R124). -/
def State.dropWaiting (s : State) (b : Booking) : State :=
  { s with waiting := s.waiting.filter fun w => decide (w.booking ≠ b) }

/-- The position of a booking's element, from 1 as the oldest, with the element (R124). -/
def State.waitingAt (s : State) (b : Booking) : Option (Nat × Waiting) :=
  ((s.waiting.zipIdx 1).find? fun p => decide (p.1.booking = b)).map fun p => (p.2, p.1)

/-! Deck sections -/

/-- Changes one section's record. -/
def State.onSection (s : State) (n : Nat) (f : Sect → Sect) : State :=
  { s with sections := s.sections.modify n f }

/-- FAULT: position, origin and target become none, the timer stops, the cause is recorded and a held
fault is held no longer (R142, R145). A stopped timer stands at 0 (notes/assumptions/35.md). -/
def Sect.toFault (cause : FaultCause) (c : Sect) : Sect :=
  { c with
    position := none, origin := none, target := none, state := .fault, faultHeld := false,
    cause := some cause, timer := 0 }

/-- MOVING: origin is the position left, the timer stands at 240 (R141, R142). -/
def Sect.toMoving (target : Option Position) (c : Sect) : Sect :=
  { c with
    position := none, origin := c.position, target := target, state := .moving,
    timer := Config.moveSeconds }

/-- MOVE_PENDING with a held sensor fault: any target is discarded (R145). -/
def Sect.toHeldFault (cause : FaultCause) (c : Sect) : Sect :=
  { c with state := .movePending, target := none, faultHeld := true, cause := some cause }

/-- AT_POSITION at a position just reached or read (R146, R147). That the stopped move timer stands at 0 is
the model's choice (R137, notes/assumptions/35.md). -/
def Sect.toPosition (p : Position) (c : Sect) : Sect :=
  { c with
    position := some p, origin := none, target := none, state := .atPosition, timer := 0 }

/-- The lanes of section `n` take their current clearances at position `p` (R146). -/
def State.setClearances (s : State) (n : Nat) (p : Position) : State :=
  match s.sections.get n with
  | some c =>
    { s with
      lanes := s.lanes.mapAll fun l =>
        if l.affectedBy n then { l with clearance := l.clearanceAt c.clearances n p } else l }
  | none => s

/-- A section comes to hold position `p`, and its lanes their clearances there (R146, R147). -/
def State.settleAt (s : State) (n : Nat) (p : Position) : State :=
  (s.onSection n (Sect.toPosition p)).setClearances n p

/-- A sensor fault of a section that holds a position: FAULT at once, or a held fault while an affected
lane carries a pending movement (R145). -/
def State.sensorFault (s : State) (n : Nat) (cause : FaultCause) : State :=
  if (s.pendingLanes n).isEmpty then s.onSection n (Sect.toFault cause)
  else s.onSection n (Sect.toHeldFault cause)

/-- The SECTION_STATE notice of a section as it stands in `s`, with the state before (R141). -/
def State.sectionNotice (s : State) (n : Nat) (before : SectState) (cause : SectCause) : List Notice :=
  match s.sections.get n with
  | some c => [.sectionState n before c.state c.position c.target c.faultHeld cause]
  | none => []

/-- The inputs ask for no sensor fault (R145): they show the position held, or a fault is held already,
in which case further changes alter nothing. -/
def State.inputsAgree (s : State) (n : Nat) (c : Sect) : Bool :=
  c.faultHeld ||
    ((shownPosition (s.sectionInputs n)).isSome &&
      decide (shownPosition (s.sectionInputs n) = c.position))

/-- Inputs compared with the position a section holds, and the sensor fault taken (R145). -/
def State.compareInputs (s : State) (n : Nat) (c : Sect) : State :=
  if s.inputsAgree n c then s else s.sensorFault n (sensorCause (s.sectionInputs n))

/-- The resolution of a movement on lane `n`, as the Deck Section Controller takes it: a section in
MOVE_PENDING whose affected lanes carry no pending movement any more starts its move, or enters its
held fault (R114, R142). Returns the SECTION_STATE notice. -/
def State.resolved (s : State) (n : Nat) : State × List Notice :=
  match (s.lanes.get n).bind fun l => l.profile.relation.section? with
  | none => (s, [])
  | some k =>
    match s.sections.get k with
    | none => (s, [])
    | some c =>
      if c.state = .movePending ∧ s.pendingLanes k = [] then
        if c.faultHeld then
          let cause := c.cause.getD .inputLost
          let t := s.onSection k (Sect.toFault cause)
          (t, t.sectionNotice k .movePending (.fault cause))
        else
          let t := s.onSection k (Sect.toMoving c.target)
          (t, t.sectionNotice k .movePending .waitOver)
      else (s, [])

/-! Heel Monitor -/

/-- What leaving and entering ACTIVE does to the counts (R71): leaving clears the divergence and
qualified-sample counts, entering clears the qualified-sample count. -/
def Monitor.settle (before : MonitorState) (m : Monitor) : Monitor :=
  if before = .active ∧ m.state ≠ .active then { m with divergence := 0, qualified := 0 }
  else if before ≠ .active ∧ m.state = .active then { m with qualified := 0 }
  else m

/-- The MONITOR_STATE notice of a change of monitor state (R71). -/
def monitorNotices (before after : Monitor) : List Notice :=
  if before.state = after.state then [] else [.monitorState after.state before.state after.rail]

/-! The overshoot check and presence -/

/-- The overshoot check (R61): BAND_EXCEEDED if an envelope lies beyond its limit, in RUN and
RECOVERY. -/
def State.overshoot (s : State) (byPresence : Bool) : List Notice :=
  if s.planMode ∧ (s.account.upper > s.upperLimit ∨ s.account.lower < s.lowerLimit) then
    [.bandExceeded byPresence s.account.upper s.account.lower s.upperLimit s.lowerLimit]
  else []

/-- Replaces one row of the Station Table. -/
def State.setStation (s : State) (st : Station) (row : StationRow) : State :=
  { s with stations := s.stations.set st row }

/-- The entry into RUN by the plan-lock key (R167): the loading computer station has become PRESENT in
RECOVERY with the key LOCKED. -/
def State.planLock (s : State) : State × List Notice :=
  if s.mode = .recovery ∧ s.control.keyLocked then
    ({ s with control := { s.control with work := .run } }, [.mode .run .planLock])
  else (s, [])

/-- A station's presence takes a value that differs from the one held: the timer as given,
STATION_PRESENCE, and for the loading computer station the overshoot check and the plan-lock entry
into RUN (R155, R167). -/
def State.changePresence (s : State) (st : Station) (here : Bool) (quiet : Option Nat)
    (cause : PresenceCause) : State × List Notice :=
  let t := s.setStation st { s.stations.get st with present := here, quiet := quiet }
  if st = .loading then
    let band := t.overshoot true
    let locked := if here then t.planLock else (t, [])
    (locked.1, .stationPresence st here cause :: band ++ locked.2)
  else (t, [.stationPresence st here cause])

/-- A station becomes ABSENT if it was PRESENT, and its timer stops (R154, R155). -/
def State.makeAbsent (s : State) (st : Station) (cause : PresenceCause) : State × List Notice :=
  if (s.stations.get st).present then s.changePresence st false none cause
  else (s.setStation st { s.stations.get st with quiet := none }, [])

/-- A link is reset (R154): what it holds is discarded and its station becomes ABSENT. A break in
progress on the line is left to end. -/
def State.resetLink (s : State) (st : Station) : State × List Notice :=
  let l := s.links.get st
  let r := match l.receiver with
    | .inBreak => Receiver.inBreak
    | _ => Receiver.hunting
  let t := s.setLink st { l with mailbox := [], queue := [], slots := [], receiver := r }
  t.makeAbsent st .reset

/-- The line-ready input's level is taken (R150, R155). -/
def State.takeReady (s : State) (st : Station) (level : Bool) : State × List Notice :=
  let t := s.setLink st { s.links.get st with ready := level }
  if level then (t, []) else t.makeAbsent st .lineReady

/-! The retained image -/

/-- The ramps through which the RESERVED and LEAVING entries were admitted (R122, R169), by lane. -/
def State.admitting (s : State) : Table Nat :=
  s.lanes.filterMap fun p =>
    if p.2.inService then (s.reservationOn p.1).map fun r => (p.1, r.ramp) else none

/-- The retained contents of the state (R169). Reservation counts, zone masses and a running move's
origin and timer are not among them. -/
def State.image (s : State) : Image where
  isSealed := s.isSealed
  lanes := s.lanes
  zones := s.zones.mapAll fun z => { z with confirmed := 0, pendingLoad := 0 }
  ramps := s.ramps.mapAll fun r => { r with count := 0 }
  sections := s.sections.mapAll fun c => { c with origin := none, timer := 0 }
  gap := s.gap
  segregation := s.segregation
  admitting := s.admitting
  register := s.register
  kp := s.account.kp
  ks := s.account.ks
  h := s.account.h
  kh := s.monitor.kh
  offset := s.monitor.offset
  tolerance := s.monitor.tolerance
  stop := s.monitor.stop
  timeout := s.timeout
  clock := s.clock

/-- The image is replaced whole, with an integrity word that matches it (R169). -/
def State.commit (s : State) : State := { s with store := { image := s.image, intact := true } }

end Sys2Proof.Machine
end

