-- ==== Sys2Proof/Machine/Evaluate.lean ====
section
/-! DEFINITION. The admission decision (spec/05 R84 to R95): the fourteen candidate tests, the choice
among candidates, the reservation a load admission makes, and the re-examination pass of the Waiting
List (spec/07 R125 to R128). -/

namespace Sys2Proof.Machine

/-! The candidate tests -/

/-- The lane accepts the kind (R87). -/
def KindSet.has (k : KindSet) : UnitKind → Bool
  | .trailer => k.trailer
  | .rigid => k.rigid
  | .car => k.car
  | .cassette => k.cassette

/-- The units that stand in a lane for dangerous-goods separation, with their offsets: its entries in
any state, and the unit of a LOAD check record at the check record's offset (R89). -/
def Lane.standing (l : Lane) : List (Nat × UnitBody) :=
  l.entries.map (fun e => (e.offset, e.unit)) ++ l.loadCheck?.toList.map fun p => (p.1.offset, p.2)

/-- A unit at `offset` of lane `l` conflicts with a unit of group `g` in the span `slot` (R89). -/
def conflicts (segregation : Nat) (l : LaneProfile) (g : DgGroup) (slot : Span) (u : Nat × UnitBody) :
    Bool :=
  match u.2.dg with
  | none => false
  | some g' => decide (g' ≠ g) && decide ((l.span u.1 u.2.length).distance slot ≤ segregation)

/-- Two lanes are on one deck in the same row or in adjacent rows (R4, R89). -/
def LaneProfile.near (a b : LaneProfile) : Bool :=
  decide (a.deck = b.deck) && decide (a.row ≤ b.row + 1) && decide (b.row ≤ a.row + 1)

/-- A conflicting unit stands near the slot (R89). -/
def State.conflictNear (s : State) (l : LaneProfile) (g : DgGroup) (slot : Span) : Bool :=
  s.lanes.any fun p => p.2.profile.near l && p.2.standing.any (conflicts s.segregation p.2.profile g slot)

/-- ORDER (R88): the open-end entry leaves earlier than the unit. -/
def orderFails (l : Lane) (port : Nat) : Bool :=
  match l.entries.getLast? with
  | some e => decide (e.unit.port < port)
  | none => false

/-- ZONE_MASS (R90): the zone's confirmed and pending load mass with the unit exceeds its cap. -/
def State.zoneFails (s : State) (z : Option Nat) (m : Nat) : Bool :=
  match z.bind s.zones.get with
  | some zone => decide (zone.cap < zone.confirmed + zone.pendingLoad + m)
  | none => false

/-- The fourteen tests of Table 5-3 for a unit on a lane through a ramp with the given mask, each with
whether it fails. -/
def State.candidateTests (s : State) (mask : Nat) (u : UnitBody) (l : Lane) : List (WaitReason × Bool) :=
  let off := s.laneEnd l
  let d : Int := u.mass * l.profile.arm
  [ (.mask, decide (mask < l.level)),
    (.sect, s.laneSectionPending l),
    (.state, !(decide (s.displayed l = .openLane) || decide (s.displayed l = .filling))),
    (.busy, l.inService),
    (.limit, decide (Config.laneEntries ≤ l.entries.length)),
    (.kind, !l.profile.kinds.has u.kind),
    (.length, decide (l.profile.length < off + u.length)),
    (.height, decide (l.clearance < u.height)),
    (.order, orderFails l u.port),
    (.reefer, u.reefer && decide (l.profile.sockets ≤ l.reeferCount)),
    (.dg, match u.dg with
      | none => false
      | some g => !l.profile.dgPermitted || s.conflictNear l.profile g (l.profile.span off u.length)),
    (.laneMass, decide (l.profile.massCap < l.mass + u.mass)),
    (.zoneMass, s.zoneFails (s.slotZone l.profile off u.length) u.mass),
    (.heel, !s.envelopeOk s.account d) ]

/-- A lane's reason: the first test that fails (R85). -/
def State.laneReason (s : State) (mask : Nat) (u : UnitBody) (l : Lane) : Option WaitReason :=
  ((s.candidateTests mask u l).find? fun t => t.2).map (·.1)

/-- The outcome of examining the lanes of a reach list, in its order (R85). -/
def State.examine (s : State) (r : Ramp) (u : UnitBody) : List (Nat × Lane × Option WaitReason) :=
  r.reach.filterMap fun n => (s.lanes.get n).map fun l => (n, l, s.laneReason r.mask u l)

/-- The reasons in the order of Table 5-3. -/
def allReasons : List WaitReason :=
  [.mask, .sect, .state, .busy, .limit, .kind, .length, .height, .order, .reefer, .dg, .laneMass,
    .zoneMass, .heel]

/-- The reason list: one pair for each distinct reason found, in the order of Table 5-3, with the number
of lanes that gave it (R94). -/
def gatherReasons (found : List WaitReason) : Reasons :=
  allReasons.filterMap fun w =>
    if found.count w = 0 then none else some (w, found.count w)

/-! The choice -/

/-- A lane that passed all fourteen tests, with the measures of the choice (R92). -/
structure Candidate where
  lane : Nat
  level : Nat
  /-- The length left unused after stowage. -/
  left : Nat
  centred : Nat
  deriving DecidableEq, Repr

/-- The four steps of R92 in turn. -/
def Candidate.better (a b : Candidate) : Bool :=
  if a.level ≠ b.level then decide (a.level < b.level)
  else if a.left ≠ b.left then decide (a.left < b.left)
  else if a.centred ≠ b.centred then decide (a.centred < b.centred)
  else decide (a.lane < b.lane)

/-- The candidate that the steps leave. -/
def choose (cs : List Candidate) : Option Candidate :=
  cs.foldl (fun best c => match best with
    | none => some c
    | some b => if c.better b then some c else some b) none

/-- The measures of a lane for a unit (R87, R92). -/
def State.candidate (s : State) (u : UnitBody) (n : Nat) (l : Lane) : Candidate where
  lane := n
  level := l.level
  left := l.profile.length - s.laneEnd l - u.length
  centred := s.account.centred (u.mass * l.profile.arm)

/-- How an examination ends: the chosen lane, or the reason list. -/
inductive Evaluation where
  | chosen (lane : Nat)
  | held (reasons : Reasons)
  deriving DecidableEq, Repr

/-- A device limit is reached: 16 reservations, 6 of the ramp, or 640 pool entries in use (R84). -/
def State.limitReached (s : State) (r : Ramp) : Bool :=
  decide (Config.reservations ≤ s.movements.length) || decide (Config.rampReservations ≤ r.count) ||
    decide (Config.poolSize ≤ s.poolInUse)

/-- The device limits, then the lanes of the reach (R84, R85, R92, R94, R95). -/
def State.evaluate (s : State) (r : Ramp) (u : UnitBody) : Evaluation :=
  if s.limitReached r then .held [(.limit, r.reach.length)]
  else
    let ex := s.examine r u
    match choose (ex.filterMap fun x => if x.2.2.isNone then some (s.candidate u x.1 x.2.1) else none) with
    | some c => .chosen c.lane
    | none => .held (gatherReasons (ex.filterMap fun x => x.2.2))

/-! Load admission -/

/-- The slot a unit takes in a lane, and what its admission is answered with (R85, R93). -/
structure SlotPlace where
  lane : Nat
  offset : Nat
  centre : Int
  zone : Option Nat
  delta : Int
  seq : Nat
  deriving DecidableEq, Repr

def State.slotOf (s : State) (n : Nat) (l : Lane) (u : UnitBody) : SlotPlace where
  lane := n
  offset := s.laneEnd l
  centre := l.profile.centre (s.laneEnd l) u.length
  zone := s.slotZone l.profile (s.laneEnd l) u.length
  delta := u.mass * l.profile.arm
  seq := s.seqNext

/-- Every change of a load admission (R93): Place, the LOAD reservation, the account, the ramp's count,
the record. -/
def State.reserveLoad (s : State) (ramp : Nat) (b : Booking) (u : UnitBody) (p : SlotPlace) : State :=
  let placed := s.opPlace p.lane { booking := b, unit := u, offset := p.offset, state := .reserved }
    p.delta p.zone
  (placed.addReservation
    { kind := .load, lane := p.lane, ramp := ramp, booking := b, mass := u.mass, delta := p.delta,
      zone := p.zone, offset := p.offset, seq := p.seq, seconds := s.timeout }).setUnitState b .reserved

/-! Lane reports -/

/-- What READ_LANE reports of a lane differs (R34). -/
def contentChanged (s0 s1 : State) (l0 l1 : Lane) : Bool :=
  decide (l0.entries ≠ l1.entries) || decide (l0.check ≠ l1.check) || decide (l0.closed ≠ l1.closed) ||
    decide (l0.level ≠ l1.level) || decide (s0.displayed l0 ≠ s1.displayed l1)

/-- The revision rises by one, wrapping from 65535 to 0 (R34). -/
def Lane.revise (l : Lane) : Lane := { l with revision := (l.revision + 1) % 65536 }

/-- A lane after an event: its revision raised if the event changed it (R34). -/
def revisedLane (s0 s1 : State) (p : Nat × Lane) : Nat × Lane :=
  match s0.lanes.get p.1 with
  | some l0 => if contentChanged s0 s1 l0 p.2 then (p.1, p.2.revise) else p
  | none => p

/-- The lanes an event changed have their revisions raised (R34). -/
def State.reviseFrom (s1 s0 : State) : State := { s1 with lanes := s1.lanes.map (revisedLane s0 s1) }

/-- The LANE_STATE notice of a lane as it stands (R29). -/
def State.laneNotice (s : State) (n : Nat) (l : Lane) : Notice :=
  .laneState n (s.displayed l) l.inService l.entries.length (s.laneEnd l) (s.lamp l) l.revision

/-- A change that LANE_STATE reports: displayed state, in-service attribute or number of entries (R29). -/
def reportChanged (s0 s1 : State) (l0 l1 : Lane) : Bool :=
  decide (s0.displayed l0 ≠ s1.displayed l1) || decide (l0.inService ≠ l1.inService) ||
    decide (l0.entries.length ≠ l1.entries.length)

/-- The LANE_STATE of a lane, if an event changed it (R29). -/
def laneReport (s0 s1 : State) (p : Nat × Lane) : Option Notice :=
  (s0.lanes.get p.1).bind fun l0 =>
    if reportChanged s0 s1 l0 p.2 then some (s1.laneNotice p.1 p.2) else none

/-- One LANE_STATE for each changed lane, in ascending lane number (R29). -/
def laneReports (s0 s1 : State) : List Notice := s1.lanes.filterMap (laneReport s0 s1)

/-- OPEN or FILLING: the displayed states in which a lane is offered (R29, R86). -/
def Displayed.offered : Displayed → Bool
  | .openLane => true
  | .filling => true
  | .away => false
  | .moving => false
  | .check => false
  | .closed => false
  | .full => false

/-- The lane's displayed state has become OPEN or FILLING, having been any other value (R29). -/
def newlyOffered (s0 s1 : State) (p : Nat × Lane) : Bool :=
  match s0.lanes.get p.1 with
  | some l0 => decide (s0.displayed l0 ≠ s1.displayed p.2) && (s1.displayed p.2).offered
  | none => false

/-- A lane has become OPEN or FILLING (R29, R125). -/
def becameOffered (s0 s1 : State) : Bool := s1.lanes.any (newlyOffered s0 s1)

/-! The re-examination pass -/

/-- Replaces a waiting element (R127). -/
def State.setWaiting (s : State) (w : Waiting) : State :=
  { s with waiting := s.waiting.map fun q => if q.booking = w.booking then w else q }

/-- A failed examination (R127): the retry count rises and the reasons are replaced; the sixteenth
excludes the unit. -/
def State.failExamination (s : State) (w : Waiting) (rs : Reasons) : State × List Notice :=
  if w.retries + 1 ≥ Config.retryLimit then
    ((s.dropWaiting w.booking).setUnitState w.booking .excluded,
      [.excluded w.ramp w.booking (w.retries + 1) rs, .unitExcluded false w.booking w.ramp rs])
  else (s.setWaiting { w with retries := w.retries + 1, reasons := rs }, [])

/-- A deferred admission to lane `n` (R95, R126): every change of R93, the lane's revision raised once
more, ASSIGNED and then the lane's LANE_STATE. -/
def State.admitWaiting (s : State) (w : Waiting) (u : UnitBody) (n : Nat) (l : Lane) :
    State × List Notice :=
  let p := s.slotOf n l u
  let t := (((s.dropWaiting w.booking).reserveLoad w.ramp w.booking u p).onLane n Lane.revise)
  (t, .assigned w.ramp w.booking n p.offset p.centre p.seq w.retries ::
    (t.lanes.get n).toList.map (t.laneNotice n))

/-- One element of a pass (R126): skipped while its ramp is suspended, otherwise examined against the
state as it stands at that moment. -/
def State.passElement (s : State) (w : Waiting) : State × List Notice :=
  match s.fittedRamp w.ramp, s.findRecord w.booking with
  | some r, some unit =>
    if r.suspended then (s, [])
    else match s.evaluate r unit.body with
      | .held rs => s.failExamination w rs
      | .chosen n => match s.lanes.get n with
        | some l => s.admitWaiting w unit.body n l
        | none => (s, [])
  | _, _ => (s, [])

/-- The elements of a pass, oldest first, with the notices in the order the elements are dealt with
(R126, R128). -/
def State.passOver (s : State) (ws : List Waiting) : State × List Notice :=
  match ws with
  | [] => (s, [])
  | w :: rest =>
    let one := s.passElement w
    let more := one.1.passOver rest
    (more.1, one.2 ++ more.2)

/-- A pass is run only in RUN and only while the heel stop is clear (R125). -/
def State.passAllowed (s : State) : Bool := decide (s.mode = .run) && !s.monitor.stop

/-- A re-examination pass over the elements that stand in the list when it begins (R125, R126). -/
def State.runPass (s : State) : State × List Notice :=
  if s.passAllowed then s.passOver s.waiting else (s, [])

end Sys2Proof.Machine
end

