-- ==== Sys2Proof/Machine/Event.lean ====
section
/-! DEFINITION. How an event ends and how a request is taken: the order of reply, notices, lane reports
and pass (spec/02 R29, spec/06 R114, spec/07 R125, R128), the account revision (spec/04 R75), the
release of slots (spec/10 R162), the image update (spec/11 R169), and the taking of a mailbox's oldest
frame (spec/09 R152). -/

namespace Sys2Proof.Machine

/-- What a step answers. -/
abbrev Result := Host.Outcome State Fault Refusal

/-- A zone's confirmed or pending load mass differs (R75). A zone that is defined before and after the event
is compared; that defining or discarding a zone changes no zone mass is the model's choice
(notes/assumptions/14.md). -/
def zoneChanged (s0 : State) (p : Nat × Zone) : Bool :=
  match s0.zones.get p.1 with
  | some z0 => decide (z0.confirmed ≠ p.2.confirmed) || decide (z0.pendingLoad ≠ p.2.pendingLoad)
  | none => false

/-- Tc, P+, P−, a zone mass, the band or Heff differs (R75). -/
def accountChanged (s0 s1 : State) : Bool :=
  decide (s0.account.tc ≠ s1.account.tc) || decide (s0.account.pPlus ≠ s1.account.pPlus) ||
    decide (s0.account.pMinus ≠ s1.account.pMinus) || decide (s0.account.kp ≠ s1.account.kp) ||
    decide (s0.account.ks ≠ s1.account.ks) || decide (s0.account.h ≠ s1.account.h) ||
    decide (s0.heff ≠ s1.heff) || s1.zones.any (zoneChanged s0)

/-- The account revision rises by one in an event that changes the account, wrapping from 65535 to 0
(R75). -/
def State.reviseAccount (s1 s0 : State) : State :=
  if accountChanged s0 s1 then
    { s1 with account := { s1.account with revision := (s1.account.revision + 1) % 65536 } }
  else s1

/-- The event is one whose lane derivations are reported: the profile is sealed before and after it, so
neither SEAL nor CLEAR_PLAN nor a PROFILE request reports a lane (R29). -/
def lanesWatched (s0 s1 : State) : Bool := s0.isSealed && s1.isSealed

/-- The changed lanes' revisions, where lanes are reported. -/
def State.reviseLanes (s1 s0 : State) : State := if lanesWatched s0 s1 then s1.reviseFrom s0 else s1

/-- An event raises a trigger: one its rule names, a lane that has become OPEN or FILLING, or a mode that
has become RUN (R125). -/
def triggered (s0 s1 : State) (named : Bool) : Bool :=
  named || (lanesWatched s0 s1 && becameOffered s0 s1) ||
    (decide (s0.mode ≠ .run) && decide (s1.mode = .run))

/-- A reply, where the event is a request, stands ahead of the event's notices (R152, R114). -/
def State.answer (s : State) (reply : Option (Station × Frame)) : State :=
  match reply with
  | some p => s.reply p.1 p.2
  | none => s

/-- The LANE_STATE notices of an event that reports lanes: `s1` is the state its changes leave, `s2` the same
with the revisions raised (R29, R34). -/
def watchedReports (s0 s1 s2 : State) : List Notice :=
  if lanesWatched s0 s1 then laneReports s0 s2 else []

/-- An event up to its pass: lane revisions, the reply, then the notices `head`, the LANE_STATE reports
and the notices `tail` (R29, R114, R128). `s0` is the state before the event, `s1` the state its own
changes leave. -/
def State.report (s1 s0 : State) (reply : Option (Station × Frame)) (head tail : List Notice) : State :=
  ((s1.reviseLanes s0).answer reply).sendAll
    (head ++ watchedReports s0 s1 (s1.reviseLanes s0) ++ tail)

/-- The pass of an event, with its notices behind those of the event (R125, R128). -/
def State.passIf (s : State) (run : Bool) : State :=
  if run then s.runPass.1.sendAll s.runPass.2 else s

/-- The end of an event: account revision, slot release, image update (R75, R162, R169). -/
def State.settleEvent (s1 s0 : State) : State := (s1.reviseAccount s0).releaseAll.commit

/-- An event from its own changes to its end. -/
def State.finish (s1 s0 : State) (reply : Option (Station × Frame)) (head tail : List Notice)
    (named : Bool) : State :=
  ((s1.report s0 reply head tail).passIf (triggered s0 s1 named)).settleEvent s0

/-! Requests -/

/-- What taking a request comes to: the state its own changes leave, the reply, the notices ahead of and
behind the LANE_STATE reports, and whether its rule names it a trigger. -/
structure Taken where
  state : State
  reply : Reply
  head : List Notice := []
  tail : List Notice := []
  trigger : Bool := false

/-- A refusal that changes nothing. -/
def refuse (s : State) (why : RefuseReason) (detail : List Byte := []) : Taken where
  state := s
  reply := .refuse why detail

/-- REFUSE FIELD naming a field, and changing nothing. -/
def refuseAt (s : State) (number : Nat) (position : Nat := 0) (detail : List Byte := []) : Taken where
  state := s
  reply := .refuseField number position detail

/-- ACK with contents, changing nothing beyond `s` and sending no notice. -/
def acknowledge (s : State) (contents : List Byte) : Taken where
  state := s
  reply := .ack contents

/-- A ramp station (Table 0-2). -/
def isRampStation (st : Station) : Bool := (rampOf st).isSome

/-- The oldest frame of a link's mailbox leaves it. -/
def State.popMailbox (s : State) (st : Station) : State :=
  s.setLink st { s.links.get st with mailbox := (s.links.get st).mailbox.tail }

/-- The request that can be taken from a link: the oldest frame of its mailbox, while the controller
works and the outbound queue has a free place (R152). -/
def State.nextRequest (s : State) (st : Station) : Option Frame :=
  if s.working ∧ (s.links.get st).queue.length < Config.queueSize then (s.links.get st).mailbox.head?
  else none

/-- Takes the request at the front of a link's mailbox when it is of the kind asked for; otherwise there
is no such step and nothing changes (notes/assumptions/3.md). -/
def State.take (s : State) (st : Station) (isKind : Nat → Bool)
    (handle : Frame → State → Taken) : Result :=
  match s.nextRequest st with
  | some f =>
    if isKind f.kind.toNat then
      let t := handle f (s.popMailbox st)
      .next (t.state.finish (s.popMailbox st) (some (st, replyFrame f t.reply)) t.head t.tail t.trigger)
    else .next s
  | none => .next s

/-- The same for one request code, the handler seeing the station, the payload and the state. -/
def State.takeKind (s : State) (st : Station) (code : Nat)
    (handle : Station → List Byte → State → Taken) : Result :=
  s.take st (fun k => k == code) fun f t => handle st f.payload t

/-- An event of the controller that is no request (spec/95_what_each_step_holds.md: each whole and
indivisible). -/
def State.event (s1 s0 : State) (head tail : List Notice) (named : Bool := false) : Result :=
  .next (s1.finish s0 none head tail named)

end Sys2Proof.Machine
end

