-- ==== Sys2Proof/Machine/Admission.lean ====
section
/-! DEFINITION. The Admission Unit's requests (spec/05): SET_MASK, SUSPEND_RAMP, RESUME_RAMP, ARRIVE and
UNLASH. -/

namespace Sys2Proof.Machine

/-- The number names one of the four ramps. -/
def rampNumberOk (n : Nat) : Bool := decide (1 ≤ n) && decide (n ≤ Config.rampCount)

/-- SET_MASK ramp, mask (R80): a trigger whether or not the value changed. -/
def handleSetMask (st : Station) (p : List Byte) (s : State) : Taken :=
  let r := natOf (field p 0 1)
  let mask := natOf (field p 1 1)
  if st ≠ .yard then refuse s .authority
  else if s.mode = .profile then refuse s .mode
  else if p.length ≠ 2 then refuseAt s 0
  else if !rampNumberOk r then refuseAt s 1
  else if 7 < mask then refuseAt s 2
  else match s.fittedRamp r with
    | none => refuse s .unknown
    | some _ =>
      { state := s.onRamp r fun q => { q with mask := mask },
        reply := .ack (u8 r ++ u8 mask), trigger := true }

/-- SET_MASK. -/
def execSetMask (st : Station) (s : State) : Result := s.takeKind st 0x23 handleSetMask

/-- SUSPEND_RAMP and RESUME_RAMP (R82): RESUME_RAMP alone is a trigger. -/
def setSuspended (flag : Bool) (st : Station) (p : List Byte) (s : State) : Taken :=
  let r := natOf (field p 0 1)
  if st ≠ .loading then refuse s .authority
  else if s.mode = .profile then refuse s .mode
  else if p.length ≠ 1 then refuseAt s 0
  else if !rampNumberOk r then refuseAt s 1
  else match s.fittedRamp r with
    | none => refuse s .unknown
    | some row =>
      { state := s.onRamp r fun q => { q with suspended := flag },
        reply := .ack (u8 r ++ u8 (flagCode flag) ++ u8 row.count), trigger := !flag }

/-- SUSPEND_RAMP (R82). -/
def handleSuspendRamp (st : Station) (p : List Byte) (s : State) : Taken := setSuspended true st p s

/-- SUSPEND_RAMP. -/
def execSuspendRamp (st : Station) (s : State) : Result := s.takeKind st 0x11 handleSuspendRamp

/-- RESUME_RAMP (R82). -/
def handleResumeRamp (st : Station) (p : List Byte) (s : State) : Taken := setSuspended false st p s

/-- RESUME_RAMP. -/
def execResumeRamp (st : Station) (s : State) : Result := s.takeKind st 0x12 handleResumeRamp

/-! ARRIVE -/

/-- How the booking lookup ends (Table 3-5): the record to use, with the state it leaves and whether it
was created, or a refusal. -/
inductive Lookup where
  | use (state : State) (unit : UnitRecord) (created : Bool)
  | stop (reply : Reply)
  deriving DecidableEq, Repr

/-- A booking held by no record: an unannounced record from the description, or a refusal (R49, R50). -/
def lookupNew (s : State) (b : Booking) (description : Option RawUnit) : Lookup :=
  if (s.findEntry b).isSome ∨ s.lanes.any (fun l => decide (l.2.check.map (·.booking) = some b)) then
    .stop (.refuse .inUse [])
  else match description with
    | none => .stop (.refuse .unknown [])
    | some raw =>
      match raw.badField with
      | some k => .stop (.refuseField k 0 [])
      | none =>
        if Config.registerSize ≤ s.register.length then .stop (.refuse .full [])
        else
          let unit : UnitRecord :=
            { booking := b, fields := raw.fields, unannounced := true, state := .announced }
          .use (s.putRecord unit) unit true

/-- The booking lookup of an ARRIVE (R49). -/
def lookupUnit (s : State) (b : Booking) (description : Option RawUnit) : Lookup :=
  match s.findRecord b with
  | some unit =>
    match unit.state with
    | .announced => .use s unit false
    | .excluded => .use (s.setUnitState b .announced) { unit with state := .announced } false
    | .waiting => .stop (.refuse .inUse [])
    | .reserved => .stop (.refuse .inUse [])
    | .check => .stop (.refuse .inUse [])
  | none => lookupNew s b description

/-- No lane was chosen (R94): the unit joins the Waiting List, or is refused LIST_FULL. -/
def waitOrRefuse (s : State) (ramp : Nat) (b : Booking) (rs : Reasons) (head : List Notice) : Taken :=
  if s.waiting.length < Config.waitingSize then
    { state := { s.setUnitState b .waiting with
        waiting := s.waiting ++ [{ booking := b, ramp := ramp, retries := 0, reasons := rs }] },
      reply := .wait (s.waiting.length + 1) rs, head := head }
  else { state := s, reply := .refuse .listFull (encReasons rs), head := head }

/-- The outcome of an ARRIVE whose lookup delivered a record (R84, R92 to R94). -/
def arriveWith (s : State) (ramp : Nat) (row : Ramp) (unit : UnitRecord) (head : List Notice) : Taken :=
  if s.monitor.stop then waitOrRefuse s ramp unit.booking [(.heelStop, row.reach.length)] head
  else match s.evaluate row unit.body with
    | .held rs => waitOrRefuse s ramp unit.booking rs head
    | .chosen n =>
      match s.lanes.get n with
      | none => waitOrRefuse s ramp unit.booking [] head
      | some l =>
        let p := s.slotOf n l unit.body
        { state := s.reserveLoad ramp unit.booking unit.body p,
          reply := .assign n p.offset p.centre p.seq, head := head }

/-- ARRIVE booking, optional description (R83 to R94): 10 or 20 bytes. -/
def handleArrive (st : Station) (p : List Byte) (s : State) : Taken :=
  match rampOf st with
  | none => refuse s .authority
  | some ramp =>
    if s.mode ≠ .run then refuse s .mode
    else match s.fittedRamp ramp with
    | none => refuse s .reach
    | some row =>
      if row.suspended then refuse s .suspended
      else if s.clock.reached then refuse s .cutoff
      else if p.length ≠ 10 ∧ p.length ≠ 20 then refuseAt s 0
      else match decBooking (field p 0 10) with
      | none => refuseAt s 1
      | some b =>
        match lookupUnit s b (if p.length = 20 then some (rawUnit (p.drop 10)) else none) with
        | .stop reply => { state := s, reply := reply }
        | .use t unit created =>
          arriveWith t ramp row unit
            (if created then [.unannouncedUnit b ramp unit.fields] else [])

/-- ARRIVE. -/
def execArrive (st : Station) (s : State) : Result := s.takeKind st 0x30 handleArrive

/-! UNLASH -/

/-- What a HEEL refusal of UNLASH carries (R98): the envelope as it would have become, and the limit. -/
def heelFigures (s : State) (d : Int) : List Byte :=
  if d > 0 then i32 (s.account.upperWith d) ++ i32 s.upperLimit
  else i32 (s.account.lowerWith d) ++ i32 s.lowerLimit

/-- A discharge admission (R99). -/
def releaseUnit (s : State) (ramp : Nat) (f : Found) : Taken :=
  let d : Int := -(f.entry.unit.mass * f.lane.profile.arm)
  { state := (s.opRelease f.laneNo d).addReservation
      { kind := .discharge, lane := f.laneNo, ramp := ramp, booking := f.entry.booking,
        mass := f.entry.unit.mass, delta := d,
        zone := s.slotZone f.lane.profile f.entry.offset f.entry.unit.length,
        offset := f.entry.offset, seq := s.seqNext, seconds := s.timeout },
    reply := .ack (u8 f.laneNo ++ u8 f.position ++ u16 f.entry.offset ++ i32 d ++ u32 s.seqNext) }

/-- The checks of an UNLASH against the entry's lane, the Movement Table and the band (R97, R98). -/
def unlashFound (s : State) (ramp : Nat) (row : Ramp) (f : Found) : Taken :=
  let shown := s.displayed f.lane
  let d : Int := -(f.entry.unit.mass * f.lane.profile.arm)
  if !row.reach.contains f.laneNo then refuse s .reach
  else if shown = .check ∨ shown = .moving ∨ shown = .away ∨ s.laneSectionPending f.lane then
    refuse s .busy
  else if f.lane.inService then refuse s .busy
  else if f.position < f.lane.entries.length then
    refuse s .buried (u8 (f.lane.entries.length - f.position))
  else if Config.reservations ≤ s.movements.length ∨ Config.rampReservations ≤ row.count then
    refuse s .full
  else if !s.envelopeOk s.account d then refuse s .heel (heelFigures s d)
  else releaseUnit s ramp f

/-- UNLASH booking (R96 to R99). -/
def handleUnlash (st : Station) (p : List Byte) (s : State) : Taken :=
  match rampOf st with
  | none => refuse s .authority
  | some ramp =>
    if s.mode ≠ .run then refuse s .mode
    else match s.fittedRamp ramp with
    | none => refuse s .reach
    | some row =>
      if row.suspended then refuse s .suspended
      else if s.monitor.stop then refuse s .heelStop
      else if p.length ≠ 10 then refuseAt s 0
      else match decBooking p with
      | none => refuseAt s 1
      | some b =>
        match s.findEntry b with
        | none => if (s.findLoadCheck b).isSome then refuse s .inUse else refuse s .unknown
        | some f => if f.entry.state = .stowed then unlashFound s ramp row f else refuse s .inUse

/-- UNLASH. -/
def execUnlash (st : Station) (s : State) : Result := s.takeKind st 0x34 handleUnlash

end Sys2Proof.Machine
end

