-- ==== Sys2Proof/Machine/Clock.lean ====
section
/-! DEFINITION. The Plan Clock and the cut-off (spec/07 R132 to R136): CUTOFF, CLOCK and
CLOCK_ADVANCE. -/

namespace Sys2Proof.Machine

/-- The notices of one unit shut out (R135). -/
def shutOutNotices (cutoff : Nat) (w : Waiting) : List Notice :=
  [.shutOut w.ramp w.booking cutoff, .unitExcluded true w.booking w.ramp w.reasons]

/-- Every waiting unit leaves the list, oldest first, and its record becomes EXCLUDED (R135). -/
def State.shutOutAll (s : State) : State :=
  { s.waiting.foldl (fun t w => t.setUnitState w.booking .excluded) s with waiting := [] }

/-- The check for cut-off after the clock has taken a value (R135). -/
def State.checkCutoff (s : State) : State × List Notice :=
  match s.clock.cutoff with
  | none => (s, [])
  | some t =>
    if s.clock.reached = false ∧ t ≤ s.clock.now then
      let u := s.shutOutAll
      ({ u with clock := { s.clock with reached := true } },
        .cutoffReached t s.clock.now s.waiting.length :: s.waiting.flatMap (shutOutNotices t))
    else (s, [])

/-- CUTOFF t (R134). -/
def handleCutoff (st : Station) (p : List Byte) (s : State) : Taken :=
  let t := natOf p
  if st ≠ .loading then refuse s .authority
  else if s.mode = .profile then refuse s .mode
  else if p.length ≠ 4 then refuseAt s 0
  else if t = 0 then
    acknowledge { s with clock := { s.clock with cutoff := none, reached := false } }
      (u32 0 ++ u32 s.clock.now ++ u8 (flagCode false))
  else if t ≤ s.clock.now then refuse s .timePast (u32 s.clock.now)
  else
    acknowledge { s with clock := { s.clock with cutoff := some t, reached := false } }
      (u32 t ++ u32 s.clock.now ++ u8 (flagCode false))

/-- CUTOFF. -/
def execCutoff (st : Station) (s : State) : Result := s.takeKind st 0x0D handleCutoff

/-- CLOCK t (R133). -/
def handleClock (st : Station) (p : List Byte) (s : State) : Taken :=
  if st ≠ .loading then refuse s .authority
  else if s.mode = .profile then refuse s .mode
  else if p.length ≠ 4 then refuseAt s 0
  else
    let c := ({ s with clock := { s.clock with now := natOf p } } : State).checkCutoff
    { state := c.1,
      reply := .ack (u32 (natOf p) ++ u32 (optNat c.1.clock.cutoff) ++ u8 (flagCode c.1.clock.reached)),
      head := c.2 }

/-- CLOCK. -/
def execClock (st : Station) (s : State) : Result := s.takeKind st 0x0E handleClock

/-- CLOCK_ADVANCE (R132): one second in RUN and RECOVERY, saturating, with the check for cut-off. -/
def execClockAdvance (s : State) : Result :=
  if s.working ∧ s.planMode then
    let c := ({ s with clock := { s.clock with now := min Config.maxTime (s.clock.now + 1) } } :
      State).checkCutoff
    c.1.event s c.2 []
  else .next s

end Sys2Proof.Machine
end

