-- ==== Sys2Proof/Machine/Control.lean ====
section
/-! DEFINITION. Start Control and the retained store (spec/11): RESUME, POWER_FAIL, POWER_RESTORED,
RESET_ASSERTED, START, PLAN_LOCK_KEY_CHANGE, TIME_BASE_SECOND and SUPPLY_LOSS. -/

namespace Sys2Proof.Machine

/-! RESUME -/

/-- RESUME (R167): nothing in RUN; RECOVERY becomes RUN, and MODE follows. R167 has no field check; that a
wrong payload length is refused right behind MODE is the model's choice (notes/assumptions/33.md). -/
def handleResume (st : Station) (p : List Byte) (s : State) : Taken :=
  if st ≠ .loading then refuse s .authority
  else if s.mode = .profile then refuse s .mode
  else if p.length ≠ 0 then refuseAt s 0
  else if s.mode = .recovery then
    { state := { s with control := { s.control with work := .run } }, reply := .ack [],
      head := [.mode .run .resume] }
  else acknowledge s []

/-- RESUME. -/
def execResume (st : Station) (s : State) : Result := s.takeKind st 0x0F handleResume

/-! POWER_DOWN -/

/-- What POWER_DOWN leaves of the Heel Monitor (R78). -/
def Monitor.stopped (m : Monitor) : Monitor :=
  { m with tank := none, history := [], rail := 0, qualified := 0, divergence := 0 }

/-- A section at the entry into POWER_DOWN (R148). -/
def Sect.powerDown (c : Sect) : Sect := if c.state = .moving then c.toFault .powerDown else c

/-- The entry into POWER_DOWN (R168): section faults, the monitor's samples and tank report discarded,
the image updated; no notice is sent. -/
def State.enterPowerDown (s : State) : State :=
  State.commit
    { s with
      sections := s.sections.mapAll Sect.powerDown
      monitor := s.monitor.stopped
      control := { s.control with down := true, statesBefore := s.sections.mapAll (·.state) } }

/-- The power-fail input takes a level. -/
def State.setPowerFail (s : State) (level : Bool) : State :=
  { s with control := { s.control with powerFailInput := level } }

/-- POWER_FAIL (R168): the entry into POWER_DOWN; assertion while in POWER_DOWN changes nothing. -/
def execPowerFail (s : State) : Result :=
  if s.working then .next (s.setPowerFail true).enterPowerDown else .next (s.setPowerFail true)

/-! The resumption -/

/-- The line-ready inputs read again (R150): a level that differs from the state held is taken as a
change. -/
def State.rereadReady (s : State) (sts : List Station) : State × List Notice :=
  match sts with
  | [] => (s, [])
  | st :: rest =>
    let level := (s.links.get st).readyInput
    let one := if (s.links.get st).ready = level then (s, []) else s.takeReady st level
    let more := one.1.rereadReady rest
    (more.1, one.2 ++ more.2)

/-- The inputs of each section that holds a position are compared with it, ascending (R148). -/
def State.recheckSections (s : State) (ns : List Nat) : State :=
  match ns with
  | [] => s
  | n :: rest =>
    (match s.fittedSection n with
      | some c => if s.planMode ∧ c.holds then s.compareInputs n c else s
      | none => s).recheckSections rest

/-- The section's report at the resumption (R148): its state differs from the one before POWER_DOWN, or
the resumption has set its fault-held flag (notes/assumptions/16.md). -/
def resumptionNotice (s0 s1 : State) (n : Nat) : List Notice :=
  match s0.sections.get n, s1.sections.get n with
  | some c0, some c1 =>
    let before := (s0.control.statesBefore.get n).getD c0.state
    if before ≠ c1.state ∨ c0.faultHeld ≠ c1.faultHeld then
      s1.sectionNotice n before (.fault (c1.cause.getD .powerDown))
    else []
  | _, _ => []

/-- The state the resumption leaves, and the presence notices of the line-ready inputs (R150, R168). -/
def State.resumed (s : State) : State × List Notice :=
  let up : State :=
    { s with control := { s.control with down := false, powerFailInput := false, statesBefore := [] } }
  let r := up.rereadReady allStations
  (r.1.recheckSections (s.sections.map (·.1)), r.2)

/-- The MODE notice of a state. -/
def State.modeNotice (s : State) (cause : ModeCause) : Notice := .mode s.mode cause

/-- POWER_RESTORED (R168): the held mode resumes. -/
def execPowerRestored (s : State) : Result :=
  if s.awake ∧ s.control.down then
    let r := s.resumed
    r.1.event s (r.1.modeNotice .powerRestored :: r.2)
      ((s.sections.map (·.1)).flatMap (resumptionNotice s r.1))
  else .next (s.setPowerFail false)

/-! Starts -/

/-- RESET_ASSERTED (R165): the controller takes no frame and no event until the start. -/
def execResetAsserted (s : State) : Result :=
  .next { s with control := { s.control with resetInput := true } }

/-- The volatile stores empty, the pins as they are (R165): the links read line-ready, the straps and the
key are read. Everything retained stands at its cold-start value. -/
def State.emptied (s : State) (rateStraps : BitVec 3) : State :=
  { State.blank with
    links := PerStation.of fun st => Link.atStart (s.links.get st).readyInput
    inputs := s.inputs
    control :=
      { State.blank.control with
        powerFailInput := s.control.powerFailInput
        keyLocked := s.control.keyLocked
        rateStraps := rateStraps }
    pending := s.pending }

/-- The retained contents restored, before they are settled (R166). -/
def State.restored (s : State) (rateStraps : BitVec 3) : State :=
  let e := s.emptied rateStraps
  let i := s.store.image
  { e with
    register := i.register
    isSealed := i.isSealed
    lanes := i.lanes
    zones := i.zones
    ramps := i.ramps
    sections := i.sections
    gap := i.gap
    segregation := i.segregation
    account := { e.account with kp := i.kp, ks := i.ks, h := i.h }
    monitor :=
      { e.monitor with kh := i.kh, offset := i.offset, tolerance := i.tolerance, stop := i.stop }
    timeout := i.timeout
    clock := i.clock
    control := { e.control with work := if i.isSealed then .recovery else .profile } }

/-- The check record a lane's last entry lapses into at a warm start (R122). -/
def warmCheck (zones : Table Zone) (ramp : Nat) (l : Lane) (e : Entry) (d : Int)
    (content : CheckContent) : CheckRecord where
  booking := e.booking
  ramp := ramp
  delta := d
  zone := zoneAt zones l.profile.deck (l.profile.centre e.offset e.unit.length)
  offset := e.offset
  content := content

/-- A lane's reservation becomes a check record (R38, R122), and its mass is recounted. -/
def warmLane (zones : Table Zone) (ramp : Nat) (l : Lane) : Lane :=
  let settled : Lane :=
    match l.entries.getLast? with
    | none => l
    | some e =>
      let moment : Int := e.unit.mass * l.profile.arm
      match e.state with
      | .reserved =>
        { l with
          entries := l.entries.dropLast
          check := some (warmCheck zones ramp l e moment (.load e.unit)) }
      | .leaving =>
        { l with
          entries := setLast l.entries .stowed
          check := some (warmCheck zones ramp l e (-moment) .discharge) }
      | .stowed => l
  { settled with mass := (settled.entries.map fun e => e.unit.mass).sum }

/-- A record after a warm start (R54). -/
def warmRecord (r : UnitRecord) : UnitRecord :=
  match r.state with
  | .reserved => { r with state := .check }
  | .waiting => { r with state := .announced }
  | .announced => r
  | .check => r
  | .excluded => r

/-- The lanes and the register settled, and the pool recounted (R38, R54, R166 step 1). -/
def State.warmLanes (s : State) (admitting : Table Nat) : State :=
  let lanes := s.lanes.map fun p => (p.1, warmLane s.zones ((admitting.get p.1).getD 0) p.2)
  { s with
    lanes := lanes
    register := s.register.map warmRecord
    poolInUse := (lanes.map fun p => p.2.entries.length + p.2.loadCheck?.toList.length).sum }

/-- The moment of a lane's entries (R55). -/
def Lane.moment (l : Lane) : Int := (l.entries.map fun e => (e.unit.mass : Int) * l.profile.arm).sum

/-- The mass a zone holds in the entries of a lane (R55). -/
def Lane.massIn (zones : Table Zone) (z : Nat) (l : Lane) : Nat :=
  ((l.entries.filter fun e =>
    decide (zoneAt zones l.profile.deck (l.profile.centre e.offset e.unit.length) = some z)).map
      fun e => e.unit.mass).sum

/-- The pending load mass a zone holds in the check record of a lane (R56). -/
def Lane.pendingIn (z : Nat) (l : Lane) : Nat :=
  match l.loadCheck? with
  | some c => if c.1.zone = some z then c.2.mass else 0
  | none => 0

/-- The account and the zone masses derived from the lanes (R77, R166 step 2). -/
def State.warmAccount (s : State) : State :=
  let deltas := s.lanes.filterMap fun p => p.2.check.map (·.delta)
  { s with
    account :=
      { s.account with
        tc := (s.lanes.map fun p => p.2.moment).sum
        pPlus := (deltas.map fun d => max d 0).sum
        pMinus := (deltas.map fun d => min d 0).sum }
    zones := s.zones.map fun z =>
      (z.1,
        { z.2 with
          confirmed := (s.lanes.map fun p => p.2.massIn s.zones z.1).sum
          pendingLoad := (s.lanes.map fun p => p.2.pendingIn z.1).sum }) }

/-- A section that is treated as AT_POSITION at a warm start (R149, steps 3 and 4). -/
def State.warmHeld (s : State) (n : Nat) (c : Sect) : State :=
  if (shownPosition (s.sectionInputs n)).isSome ∧ shownPosition (s.sectionInputs n) = c.position then
    s.onSection n fun q => { q with state := .atPosition, target := none }
  else s.sensorFault n .start

/-- A fitted section at a warm start (R149). -/
def State.warmSection (s : State) (n : Nat) (c : Sect) : State :=
  match c.state with
  | .moving => s.onSection n (Sect.toFault .start)
  | .fault => s
  | .movePending =>
    if c.faultHeld then s.sensorFault n (c.cause.getD .start) else s.warmHeld n c
  | .atPosition => s.warmHeld n c

/-- The sections settled in ascending number (R149, R166 step 3). -/
def State.warmSections (s : State) (ns : List Nat) : State :=
  match ns with
  | [] => s
  | n :: rest =>
    (match s.fittedSection n with
      | some c => s.warmSection n c
      | none => s).warmSections rest

/-- A warm start (R166); the revisions of the lanes it changes rise (R34). -/
def State.warmStart (s : State) (rateStraps : BitVec 3) : State :=
  let r := s.restored rateStraps
  let t := ((r.warmLanes s.store.image.admitting).warmAccount).warmSections (r.sections.map (·.1))
  t.reviseFrom r

/-- The state a start reaches, with the cause its MODE notice carries (R165, Table 11-1). -/
def State.started (s : State) (strap : StartStrap) (rateStraps : BitVec 3) : State × ModeCause :=
  match strap with
  | .cold => (s.emptied rateStraps, .cold)
  | .warm =>
    if s.store.intact then (s.warmStart rateStraps, .warm)
    else (s.emptied rateStraps, .coldAfterLoss)

/-- START (R165): MODE is the only notice; the image is written; an asserted power-fail input leads into
POWER_DOWN. It stands for supply and for the release of the reset input alike, and leaves reset released
(notes/assumptions/5.md). -/
def execStart (strap : StartStrap) (rateStraps : BitVec 3) (s : State) : Result :=
  let r := s.started strap rateStraps
  let t := (r.1.send (r.1.modeNotice r.2)).commit
  .next (if t.control.powerFailInput then t.enterPowerDown else t)

/-- PLAN_LOCK_KEY_CHANGE (R167): the key's position changes; nothing else does. -/
def execPlanLockKeyChange (locked : Bool) (s : State) : Result :=
  .next { s with control := { s.control with keyLocked := locked } }

/-! The time base -/

/-- A quiet timer after one more second (R155). -/
def StationRow.second (row : StationRow) : StationRow :=
  { row with quiet := row.quiet.map fun q => min Config.quietLimit (q + 1) }

/-- A reservation after one more second (R104). -/
def Reservation.second (r : Reservation) : Reservation := { r with seconds := r.seconds - 1 }

/-- A section after one more second: the timer of a running move falls (R144). -/
def Sect.second (c : Sect) : Sect := if c.state = .moving then { c with timer := c.timer - 1 } else c

/-- A tank report after one more second (R65). -/
def TankReport.second (t : TankReport) : TankReport := { t with age := min 255 (t.age + 1) }

/-- TIME_BASE_SECOND (R65, R104, R144, R155): reservations fall in RUN, move timers in RUN and RECOVERY;
quiet timers and the tank report's age rise. No limit is acted on here: each has an event of its own. -/
def execTimeBaseSecond (s : State) : Result :=
  if s.working then
    .next
      { s with
        stations := PerStation.of fun st => (s.stations.get st).second
        monitor := { s.monitor with tank := s.monitor.tank.map TankReport.second }
        movements := if s.mode = .run then s.movements.map Reservation.second else s.movements
        sections := if s.planMode then s.sections.mapAll Sect.second else s.sections }
  else .next s

/-- SUPPLY_LOSS (R168, R169): every volatile store is lost; the image stays, and its integrity word fails
where the loss cut off a replacement. -/
def execSupplyLoss (cutOff : Bool) (s : State) : Result :=
  let e := s.emptied 0
  .next
    { e with
      control := { e.control with supplied := false, resetInput := s.control.resetInput }
      store := { image := s.store.image, intact := s.store.intact && !cutOff } }

end Sys2Proof.Machine
end

