-- ==== Sys2Proof/WellFormed.lean ====
section
/-! DEFINITION. The operands the module's terminals and tables admit: lanes 1 to 48 and sections 1 to 6
(spec/00 0.1, Table 11-2). Every other operand type admits only values the hardware has. -/

namespace Sys2Proof

/-- The number names one of the 48 lanes. -/
def laneNumberOk (n : Nat) : Bool := decide (1 ≤ n ∧ n ≤ 48)

/-- The number names one of the six hoistable sections. -/
def sectionNumberOk (n : Nat) : Bool := decide (1 ≤ n ∧ n ≤ 6)

/-- A command the module can be given. -/
def Instr.wf : Instr → Bool
  | .defLane _ => true
  | .defZone _ => true
  | .defRamp _ => true
  | .defSection _ => true
  | .defShip _ => true
  | .sealPlan _ => true
  | .clearPlan _ => true
  | .band _ => true
  | .heelModel _ => true
  | .tanks _ => true
  | .releaseStop _ => true
  | .timeout _ => true
  | .cutoff _ => true
  | .clock _ => true
  | .resume _ => true
  | .linkReset _ => true
  | .suspendRamp _ => true
  | .resumeRamp _ => true
  | .move _ => true
  | .cancelMove _ => true
  | .clearFault _ => true
  | .announce _ => true
  | .withdraw _ => true
  | .setPriority _ => true
  | .setMask _ => true
  | .arrive _ => true
  | .lashed _ => true
  | .backout _ => true
  | .sendBack _ => true
  | .unlash _ => true
  | .offloaded _ => true
  | .keep _ => true
  | .closeLane _ => true
  | .openLane _ => true
  | .verify _ => true
  | .readLane _ => true
  | .readUnit _ => true
  | .readAccount _ => true
  | .readState _ => true
  | .ident _ => true
  | .subscribe _ => true
  | .unknownMessageKind _ => true
  | .frameReceived _ _ => true
  | .interbyteTimeout _ => true
  | .frameSent _ => true
  | .lineBreak _ => true
  | .lineReadyChange _ _ => true
  | .quietLimit _ => true
  | .loadExpiry lane => laneNumberOk lane
  | .dischargeExpiry lane => laneNumberOk lane
  | .tankReportExpiry => true
  | .sample _ => true
  | .clockAdvance => true
  | .moveTimerExpiry sect => sectionNumberOk sect
  | .sectionInputChange sect _ => sectionNumberOk sect
  | .powerFail => true
  | .powerRestored => true
  | .resetAsserted => true
  | .start _ _ => true
  | .planLockKeyChange _ => true
  | .timeBaseSecond => true
  | .breakEnd _ => true
  | .supplyLoss _ => true

end Sys2Proof
end

