-- ==== Sys2Proof/Machine/Lanes.lean ====
section
/-! DEFINITION. Requests on lanes: CLOSE_LANE and OPEN_LANE (spec/02 R31, R32), SET_PRIORITY (spec/05
R81). -/

namespace Sys2Proof.Machine

/-- The checks of R31, which VERIFY shares (R118): authority, mode, lane number, the ramp station's reach,
a defined lane. The lane is handed on when they pass. -/
def laneRequest (st : Station) (p : List Byte) (s : State) (k : Nat → Lane → Taken) : Taken :=
  let n := natOf (field p 0 1)
  if st = .yard then refuse s .authority
  else if s.mode = .profile then refuse s .mode
  else if p.length ≠ 1 then refuseAt s 0
  else if !laneNumberOk n then refuseAt s 1
  else if isRampStation st && !(s.reachOf st).contains n then refuse s .authority
  else match s.lanes.get n with
    | none => refuse s .unknown
    | some l => k n l

/-- Sets or clears the closed flag; the ACK carries the displayed state and the in-service attribute after
the request (R31, R32). -/
def setClosed (flag : Bool) (s : State) (n : Nat) (l : Lane) : Taken :=
  acknowledge (s.onLane n fun q => { q with closed := flag })
    (u8 (displayedCode (s.displayed { l with closed := flag })) ++ u8 (flagCode l.inService))

/-- CLOSE_LANE (R31). -/
def handleCloseLane (st : Station) (p : List Byte) (s : State) : Taken :=
  laneRequest st p s (setClosed true s)

/-- CLOSE_LANE. -/
def execCloseLane (st : Station) (s : State) : Result := s.takeKind st 0x40 handleCloseLane

/-- OPEN_LANE (R32). -/
def handleOpenLane (st : Station) (p : List Byte) (s : State) : Taken :=
  laneRequest st p s (setClosed false s)

/-- OPEN_LANE. -/
def execOpenLane (st : Station) (s : State) : Result := s.takeKind st 0x41 handleOpenLane

/-- SET_PRIORITY lane, level (R81): a trigger whether or not the level changed. -/
def handleSetPriority (st : Station) (p : List Byte) (s : State) : Taken :=
  let n := natOf (field p 0 1)
  let level := natOf (field p 1 1)
  if st ≠ .yard then refuse s .authority
  else if s.mode = .profile then refuse s .mode
  else if p.length ≠ 2 then refuseAt s 0
  else if !laneNumberOk n then refuseAt s 1
  else if 7 < level then refuseAt s 2
  else match s.lanes.get n with
    | none => refuse s .unknown
    | some _ =>
      { state := s.onLane n fun l => { l with level := level },
        reply := .ack (u8 n ++ u8 level), trigger := true }

/-- SET_PRIORITY. -/
def execSetPriority (st : Station) (s : State) : Result := s.takeKind st 0x22 handleSetPriority

end Sys2Proof.Machine
end

