-- ==== Sys2Proof/Machine/Wire.lean ====
section
/-! DEFINITION. Frames on the line: the CRC and the envelope (spec/12 R170), and the receiver that
gathers frames from bytes (spec/09 R151). -/

namespace Sys2Proof.Machine

/-- The start byte (Table 12-1). -/
def startByte : Byte := 0xC5

/-- One shift of the CRC register, generator x^16 + x^12 + x^5 + 1. -/
def crcShift (c : BitVec 16) : BitVec 16 :=
  if c.msb then (c <<< 1) ^^^ 0x1021#16 else c <<< 1

/-- `n` shifts. -/
def crcShifts (n : Nat) (c : BitVec 16) : BitVec 16 :=
  match n with
  | 0 => c
  | k + 1 => crcShifts k (crcShift c)

/-- A byte enters the register most significant bit first. -/
def crcByte (c : BitVec 16) (b : Byte) : BitVec 16 :=
  crcShifts 8 (c ^^^ (b.zeroExtend 16 <<< 8))

/-- The CRC of bytes, from a register of all ones, without inversion (R170). -/
def crc16 (bs : List Byte) : BitVec 16 := bs.foldl crcByte 0xFFFF

/-- The bytes the CRC covers: length, station number, kind, tag, payload. -/
def coveredBytes (st : Station) (f : Frame) : List Byte :=
  u8 f.payload.length ++ u8 (stationNumber st) ++ [f.kind, f.tag] ++ f.payload

/-- A frame as its link carries it (Table 12-1). -/
def wireBytes (st : Station) (f : Frame) : List Byte :=
  startByte :: coveredBytes st f ++ u16 (crc16 (coveredBytes st f)).toNat

/-- One byte reaches the receiver: the receiver's next condition, and the bytes of a frame that this
byte completes. A length byte above 100 discards the frame at once (R151). -/
def receiveByte (r : Receiver) (b : Byte) : Receiver × Option (List Byte) :=
  match r with
  | .hunting => if b = startByte then (.gathering [b], none) else (.hunting, none)
  | .gathering got =>
    let all := got ++ [b]
    if all.length = 2 ∧ 100 < b.toNat then (.hunting, none)
    else if all.length = 7 + natOf (field all 1 1) then (.hunting, some all)
    else (.gathering all, none)
  | .inBreak => (.inBreak, none)

/-- Bytes reach the receiver one after another: its condition after them, and the frames completed in
order. -/
def gather (r : Receiver) (bytes : List Byte) : Receiver × List (List Byte) :=
  match bytes with
  | [] => (r, [])
  | b :: rest =>
    let one := receiveByte r b
    let more := gather one.1 rest
    (more.1, one.2.toList ++ more.2)

/-- The frame in gathered bytes, if it is valid on this link: CRC and station number match (R151). -/
def validFrame (st : Station) (bytes : List Byte) : Option Frame :=
  let n := natOf (field bytes 1 1)
  if bytes.length = 7 + n
      ∧ natOf (field bytes (5 + n) 2) = (crc16 (field bytes 1 (4 + n))).toNat
      ∧ natOf (field bytes 2 1) = stationNumber st then
    some { kind := bytes.getD 3 0, tag := bytes.getD 4 0, payload := field bytes 5 n }
  else none

end Sys2Proof.Machine
end

