-- ==== Sys2Proof/Machine/Links.lean ====
section
/-! DEFINITION. Stations, links and notices (spec/09, 10): FRAME_RECEIVED, INTERBYTE_TIMEOUT, FRAME_SENT,
LINE_BREAK, BREAK_END, LINE_READY_CHANGE, QUIET_LIMIT, LINK_RESET, SUBSCRIBE and
UNKNOWN_MESSAGE_KIND. -/

namespace Sys2Proof.Machine

/-! Bytes and frames -/

/-- A valid frame joins the mailbox at the newest end, or is dropped where the mailbox is full (R151). -/
def Link.post (l : Link) (f : Frame) : Link :=
  if l.mailbox.length < Config.mailboxSize then { l with mailbox := l.mailbox ++ [f] } else l

/-- A valid frame refreshes its station's presence (R155). -/
def State.hear (s : State) (st : Station) : State × List Notice :=
  if (s.stations.get st).present then
    (s.setStation st { s.stations.get st with quiet := some 0 }, [])
  else s.changePresence st true (some 0) .frame

/-- One gathered frame: an event if it is valid, nothing if it is not (R151). -/
def State.frameGathered (s : State) (st : Station) (bytes : List Byte) : State :=
  match validFrame st bytes with
  | none => s
  | some f =>
    let h := s.hear st
    let t := h.1.setLink st ((h.1.links.get st).post f)
    t.finish s none h.2 [] false

/-- The receiver of a link takes a condition. -/
def State.setReceiver (s : State) (st : Station) (r : Receiver) : State :=
  s.setLink st { s.links.get st with receiver := r }

/-- The link receives and transmits: the controller works and line-ready is ASSERTED (R150). -/
def State.linkLive (s : State) (st : Station) : Bool := s.working && (s.links.get st).ready

/-- FRAME_RECEIVED (R151): bytes reach the receiver, and each frame they complete is taken. -/
def execFrameReceived (st : Station) (bytes : List Byte) (s : State) : Result :=
  if s.linkLive st then
    let g := gather (s.links.get st).receiver bytes
    .next (g.2.foldl (fun t b => t.frameGathered st b) (s.setReceiver st g.1))
  else .next s

/-- INTERBYTE_TIMEOUT (R151): a frame partly received is discarded. -/
def execInterbyteTimeout (st : Station) (s : State) : Result :=
  match (s.links.get st).receiver with
  | .gathering _ => if s.awake then .next (s.setReceiver st .hunting) else .next s
  | .hunting => .next s
  | .inBreak => .next s

/-- FRAME_SENT (R153): the last byte of the oldest queued frame has been sent, and its place is free. -/
def execFrameSent (st : Station) (s : State) : Result :=
  match (s.links.get st).queue with
  | [] => .next s
  | f :: rest =>
    if s.linkLive st then
      (s.setLink st { s.links.get st with queue := rest, line := wireBytes st f }).event s [] []
    else .next s

/-! Breaks -/

/-- LINE_BREAK (R154): the break has lasted 2 character times; the link is reset once. -/
def execLineBreak (st : Station) (s : State) : Result :=
  if s.linkLive st ∧ (s.links.get st).receiver ≠ .inBreak then
    let r := s.resetLink st
    (r.1.setReceiver st .inBreak).event s r.2 []
  else .next s

/-- BREAK_END (R154): the line returns to idle, and the receiver resumes the hunt. -/
def execBreakEnd (st : Station) (s : State) : Result :=
  match (s.links.get st).receiver with
  | .inBreak => if s.awake then .next (s.setReceiver st .hunting) else .next s
  | .hunting => .next s
  | .gathering _ => .next s

/-! Line-ready and the quiet limit -/

/-- LINE_READY_CHANGE (R150, R155): the input takes a level; a change is taken while the controller
works. -/
def execLineReadyChange (st : Station) (asserted : Bool) (s : State) : Result :=
  let t := s.setLink st { s.links.get st with readyInput := asserted }
  if s.working ∧ (s.links.get st).ready ≠ asserted then
    let r := t.takeReady st asserted
    r.1.event s r.2 []
  else .next t

/-- The quiet timer of a PRESENT station has reached its limit (R155). -/
def StationRow.quietDue (row : StationRow) : Bool :=
  match row.quiet with
  | some q => row.present && decide (Config.quietLimit ≤ q)
  | none => false

/-- QUIET_LIMIT (R155): the station becomes ABSENT. -/
def execQuietLimit (st : Station) (s : State) : Result :=
  if s.working ∧ (s.stations.get st).quietDue then
    let r := s.changePresence st false none .quiet
    r.1.event s r.2 []
  else .next s

/-! LINK_RESET -/

/-- The station numbers a LINK_RESET may name (R154). -/
def resettable (n : Nat) : Option Station := if n = 1 then none else stationOf n

/-- LINK_RESET s (R154). The ACK carries s and the presence before the reset. -/
def handleLinkReset (st : Station) (p : List Byte) (s : State) : Taken :=
  let n := natOf (field p 0 1)
  if st ≠ .loading then refuse s .authority
  else if p.length ≠ 1 then refuseAt s 0
  else match resettable n with
  | none => refuseAt s 1
  | some target =>
    let r := s.resetLink target
    { state := r.1, reply := .ack (u8 n ++ u8 (flagCode (s.stations.get target).present)),
      head := r.2 }

/-- LINK_RESET. -/
def execLinkReset (st : Station) (s : State) : Result := s.takeKind st 0x10 handleLinkReset

/-! SUBSCRIBE -/

/-- The position, from `at_`, of the first element that names no broadcast kind or repeats an earlier one
(R160). That the earliest failing element of either sort is named is the model's choice
(notes/assumptions/36.md). -/
def badKind (earlier : List Nat) (at_ : Nat) (elements : List Nat) : Option Nat :=
  match elements with
  | [] => none
  | e :: rest =>
    if (broadcastOf e).isNone || earlier.contains e then some at_
    else badKind (e :: earlier) (at_ + 1) rest

/-- The kinds listed, as the set is stored: in the order of Table 10-1 (R160). -/
def kindsListed (elements : List Nat) : List NoticeKind :=
  broadcastKinds.filter fun k => elements.contains (noticeCode k)

/-- SUBSCRIBE count, elements (R160). -/
def handleSubscribe (st : Station) (p : List Byte) (s : State) : Taken :=
  let elements := (p.drop 1).map (·.toNat)
  let kinds := kindsListed elements
  if p.length = 0 ∨ natOf (field p 0 1) ≠ elements.length then refuseAt s 0
  else if 13 < elements.length then refuseAt s 1 0
  else match badKind [] 1 elements with
    | some at_ => refuseAt s 1 at_
    | none =>
      acknowledge (s.setStation st { s.stations.get st with subscribed := kinds })
        (encNums (kinds.map noticeCode))

/-- SUBSCRIBE. -/
def execSubscribe (st : Station) (s : State) : Result := s.takeKind st 0x55 handleSubscribe

/-! UNKNOWN_MESSAGE_KIND -/

/-- A kind that names no request (R152, R171): refused FIELD, naming field 0 and carrying the kind. -/
def handleUnknownKind (f : Frame) (s : State) : Taken where
  state := s
  reply := .refuseField 0 0 [f.kind]

/-- UNKNOWN_MESSAGE_KIND. -/
def execUnknownMessageKind (st : Station) (s : State) : Result :=
  s.take st (fun k => !isRequestKind k) handleUnknownKind

end Sys2Proof.Machine
end

