-- ==== Sys2Proof/Machine/Movements.lean ====
section
/-! DEFINITION. Movements (spec/06): TIMEOUT, LASHED, BACKOUT, OFFLOADED, KEEP, VERIFY, LOAD_EXPIRY and
DISCHARGE_EXPIRY. -/

namespace Sys2Proof.Machine

/-- TIMEOUT seconds (R103): clamped to 60 to 900. -/
def handleTimeout (st : Station) (p : List Byte) (s : State) : Taken :=
  let v := (clampInt 60 900 (intOf p)).toNat
  if st ≠ .loading then refuse s .authority
  else if p.length ≠ 2 then refuseAt s 0
  else acknowledge { s with timeout := v } (u16 v)

/-- TIMEOUT. -/
def execTimeout (st : Station) (s : State) : Result := s.takeKind st 0x0C handleTimeout

/-! What refusals carry -/

/-- A lane's movement as a refusal carries it: its kind and booking (R26, R108). The byte ahead of them, 1 for
a reservation and 2 for a check record, is the model's choice (notes/assumptions/10.md). A refusal "carrying
the check record" (Tables 6-3 and 6-4) carries `encCheck` in its place. -/
def encMovement (s : State) (n : Nat) (l : Lane) : List Byte :=
  match s.reservationOn n, l.check with
  | some r, _ => u8 1 ++ u8 (moveKindCode r.kind) ++ encBooking r.booking
  | none, some c => u8 2 ++ u8 (moveKindCode c.kind) ++ encBooking c.booking
  | none, none => u8 0

/-- What a movement on lane `n` that has been resolved hands on (R114): the section waiting on it, and a
pass. -/
def resolution (s : State) (n : Nat) (reply : Reply) (head : List Notice) : Taken :=
  let w := s.resolved n
  { state := w.1, reply := reply, head := head, tail := w.2, trigger := true }

/-! On-time confirmations -/

/-- The number of entries of lane `n`. -/
def State.entryCount (s : State) (n : Nat) : Nat :=
  match s.lanes.get n with
  | some l => l.entries.length
  | none => 0

/-- LASHED taken on time (R109). -/
def stowOnTime (s : State) (r : Reservation) : Taken :=
  let t := ((s.endReservation r).opStow r.lane r.delta r.zone).removeRecord r.booking
  let at_ := t.entryCount r.lane
  resolution t r.lane
    (.ack (u8 r.lane ++ encBooking r.booking ++ u8 at_ ++ u16 r.offset ++ u8 (timingCode false)))
    [.unitStowed r.booking r.lane at_ r.offset r.ramp r.mass r.delta false t.account.tc]

/-- BACKOUT taken (R110). -/
def backOutLoad (s : State) (r : Reservation) : Taken :=
  let t := ((s.endReservation r).opBackOut r.lane r.delta r.zone).setUnitState r.booking .announced
  resolution t r.lane (.ack (u8 r.lane ++ encBooking r.booking)) []

/-- OFFLOADED taken on time (R112). -/
def offloadOnTime (s : State) (r : Reservation) : Taken :=
  let t := (s.endReservation r).opOffload r.lane r.delta r.zone
  resolution t r.lane (.ack (u8 r.lane ++ encBooking r.booking ++ u8 (timingCode false)))
    [.unitDischarged r.booking r.lane r.ramp r.mass r.delta false t.account.tc]

/-- KEEP taken (R113). -/
def keepAboard (s : State) (r : Reservation) : Taken :=
  let t := (s.endReservation r).opKeep r.lane r.delta
  resolution t r.lane (.ack (u8 r.lane ++ encBooking r.booking)) []

/-! Late confirmations -/

/-- The envelope items beyond their limits after an event (Table 6-5): the upper for a positive
overshoot, the lower for a negative. -/
def upperItem (s : State) : BreachItem :=
  { envelope := s.account.upper, limit := s.upperLimit, beyond := s.account.upper - s.upperLimit }

def lowerItem (s : State) : BreachItem :=
  { envelope := s.account.lower, limit := s.lowerLimit, beyond := s.lowerLimit - s.account.lower }

/-- A late LASHED that fits (R116): HEEL is examined with the delta taken out of its pending sum. That the
ACK's list names HEEL by its reason-list code 14 is the model's choice (notes/assumptions/11.md). -/
def stowLate (s : State) (n : Nat) (c : CheckRecord) (u : UnitBody) : Taken :=
  let heelOk := s.envelopeOk (s.account.dropDelta c.delta) c.delta
  let t := (s.opStowLate n c u).removeRecord c.booking
  let at_ := t.entryCount n
  let breach := if heelOk then [] else
    [Notice.limitBreach false n c.booking [if c.delta > 0 then upperItem t else lowerItem t]]
  resolution t n
    (.ack (u8 n ++ encBooking c.booking ++ u8 at_ ++ u16 c.offset ++ u8 (timingCode true) ++
      encNums (if heelOk then [] else [waitReasonCode .heel])))
    (.unitStowed c.booking n at_ c.offset c.ramp u.mass c.delta true t.account.tc :: breach)

/-- A late LASHED (R115): LENGTH and HEIGHT, then R116. That a CONFLICT names the test by its reason-list
code, LENGTH 7 or HEIGHT 8, is the model's choice (notes/assumptions/11.md). -/
def lateLashed (s : State) (n : Nat) (l : Lane) (c : CheckRecord) (u : UnitBody) : Taken :=
  if l.profile.length < c.offset + u.length then
    refuse s .conflict
      (u8 (waitReasonCode .length) ++ u16 c.offset ++ u16 u.length ++ u16 l.profile.length)
  else if l.clearance < u.height then
    refuse s .conflict (u8 (waitReasonCode .height) ++ u16 u.height ++ u16 l.clearance)
  else stowLate s n c u

/-- A late OFFLOADED (R117): recorded without condition, envelopes beyond their limits reported. -/
def offloadLate (s : State) (n : Nat) (c : CheckRecord) (mass : Nat) : Taken :=
  let t := s.opOffloadLate n c
  let items := (if t.account.upper > t.upperLimit then [upperItem t] else []) ++
    (if t.account.lower < t.lowerLimit then [lowerItem t] else [])
  resolution t n (.ack (u8 n ++ encBooking c.booking ++ u8 (timingCode true)))
    (.unitDischarged c.booking n c.ramp mass c.delta true t.account.tc ::
      if items.isEmpty then [] else [.limitBreach true n c.booking items])

/-! LASHED and BACKOUT -/

/-- The form checks of a confirmation that names a lane and a booking (R107): 11 bytes. -/
def laneAndBooking (p : List Byte) (s : State) (k : Nat → Lane → Booking → Taken) : Taken :=
  let n := natOf (field p 0 1)
  if !laneNumberOk n then refuseAt s 2
  else match decBooking (field p 1 10) with
  | none => refuseAt s 1
  | some b =>
    match s.lanes.get n with
    | none => refuse s .unknown
    | some l => k n l b

/-- The checks that open every confirmation (R107): authority, mode, and the form by its length. The
non-specific form is resolved to the oldest reservation of the ramp and kind. -/
def confirmation (st : Station) (p : List Byte) (s : State) (kind : MoveKind) (specificLength : Nat)
    (onTime : Reservation → Taken) (specific : Taken) : Taken :=
  match rampOf st with
  | none => refuse s .authority
  | some ramp =>
    if s.mode = .profile then refuse s .mode
    else if p.length = 0 then
      match s.oldest ramp kind with
      | some r => onTime r
      | none => refuse s .noMovement
    else if p.length = specificLength then specific
    else refuseAt s 0

/-- Table 6-3 for LASHED. -/
def lashedOn (s : State) (n : Nat) (l : Lane) (b : Booking) : Taken :=
  match s.reservationOn n with
  | some r =>
    if r.kind = .load ∧ r.booking = b then stowOnTime s r
    else refuse s .mismatch (encMovement s n l)
  | none =>
    match l.check with
    | none => refuse s .noMovement
    | some c =>
      match c.content with
      | .load u => if c.booking = b then lateLashed s n l c u else refuse s .mismatch (encMovement s n l)
      | .discharge => refuse s .mismatch (encMovement s n l)

/-- LASHED (R107 to R109, R115, R116). -/
def handleLashed (st : Station) (p : List Byte) (s : State) : Taken :=
  confirmation st p s .load 11 (stowOnTime s) (laneAndBooking p s (lashedOn s))

/-- LASHED. -/
def execLashed (st : Station) (s : State) : Result := s.takeKind st 0x31 handleLashed

/-- Table 6-3 for BACKOUT. -/
def backoutOn (s : State) (n : Nat) (l : Lane) (b : Booking) : Taken :=
  match s.reservationOn n with
  | some r =>
    if r.kind = .load ∧ r.booking = b then backOutLoad s r
    else refuse s .mismatch (encMovement s n l)
  | none =>
    match l.check with
    | none => refuse s .noMovement
    | some c =>
      match c.content with
      | .load _ =>
        if c.booking = b then refuse s .noMovement (encCheck c)
        else refuse s .mismatch (encMovement s n l)
      | .discharge => refuse s .mismatch (encMovement s n l)

/-- BACKOUT (R107, R108, R110). -/
def handleBackout (st : Station) (p : List Byte) (s : State) : Taken :=
  confirmation st p s .load 11 (backOutLoad s) (laneAndBooking p s (backoutOn s))

/-- BACKOUT. -/
def execBackout (st : Station) (s : State) : Result := s.takeKind st 0x32 handleBackout

/-! OFFLOADED and KEEP -/

/-- Table 6-4 for a booking: what it is held by decides; a DISCHARGE reservation of its lane, and a
DISCHARGE check record for it, are handed to the request's own rule. -/
def heldBooking (s : State) (p : List Byte) (leaving : Reservation → Taken)
    (checked : Found → CheckRecord → Taken) : Taken :=
  match decBooking p with
  | none => refuseAt s 1
  | some b =>
    match s.findEntry b with
    | some f =>
      match f.entry.state with
      | .leaving =>
        match s.reservationOn f.laneNo with
        | some r => leaving r
        | none => refuse s .noMovement
      | .reserved => refuse s .mismatch (u8 f.laneNo ++ encMovement s f.laneNo f.lane)
      | .stowed =>
        match f.lane.check with
        | some c =>
          if c.content = .discharge ∧ c.booking = b ∧ f.position = f.lane.entries.length then checked f c
          else refuse s .noMovement
        | none => refuse s .noMovement
    | none =>
      match s.findLoadCheck b with
      | some c =>
        refuse s .mismatch
          (u8 c.1 ++ (s.lanes.get c.1).toList.flatMap fun l => encMovement s c.1 l)
      | none => refuse s .unknown

/-- OFFLOADED (R107, R111, R112, R117). -/
def handleOffloaded (st : Station) (p : List Byte) (s : State) : Taken :=
  confirmation st p s .discharge 10 (offloadOnTime s)
    (heldBooking s p (offloadOnTime s) fun f c => offloadLate s f.laneNo c f.entry.unit.mass)

/-- OFFLOADED. -/
def execOffloaded (st : Station) (s : State) : Result := s.takeKind st 0x35 handleOffloaded

/-- KEEP (R107, R111, R113). -/
def handleKeep (st : Station) (p : List Byte) (s : State) : Taken :=
  confirmation st p s .discharge 10 (keepAboard s)
    (heldBooking s p (keepAboard s) fun _ c => refuse s .noMovement (encCheck c))

/-- KEEP. -/
def execKeep (st : Station) (s : State) : Result := s.takeKind st 0x36 handleKeep

/-! VERIFY -/

/-- VERIFY of a lane (R118): NOT_THERE (1) for a LOAD check record, STILL_ABOARD (2) for a DISCHARGE
check record. -/
def verifyLane (s : State) (n : Nat) (l : Lane) : Taken :=
  match l.check with
  | none => refuse s .notCheck
  | some c =>
    match c.content with
    | .load u =>
      resolution ((s.opDropLoadCheck n c u).setUnitState c.booking .announced) n
        (.ack (u8 n ++ u8 1 ++ encBooking c.booking)) []
    | .discharge =>
      resolution (s.opDropDischargeCheck n c) n (.ack (u8 n ++ u8 2 ++ encBooking c.booking)) []

/-- VERIFY (R118). -/
def handleVerify (st : Station) (p : List Byte) (s : State) : Taken :=
  laneRequest st p s (verifyLane s)

/-- VERIFY. -/
def execVerify (st : Station) (s : State) : Result := s.takeKind st 0x42 handleVerify

/-! Expiries -/

/-- The reservation on lane `n` of the given kind whose seconds remaining have reached 0 (R104). -/
def State.expiring (s : State) (n : Nat) (k : MoveKind) : Option Reservation :=
  (s.reservationOn n).filter fun r => decide (r.kind = k) && decide (r.seconds = 0)

/-- The EXPIRED notice (R105, R106). -/
def expiredNotice (r : Reservation) : Notice := .expired r.ramp r.kind r.lane r.booking r.offset r.seq

/-- LOAD_EXPIRY (R105): the reservation lapses into a LOAD check record; the account is not changed. -/
def execLoadExpiry (lane : Nat) (s : State) : Result :=
  if s.working then
    match s.expiring lane .load with
    | some r =>
      (((s.endReservation r).opLapseLoad r.lane r.ramp r.delta r.zone).setUnitState r.booking .check).event
        s [expiredNotice r] []
    | none => .next s
  else .next s

/-- DISCHARGE_EXPIRY (R106): the reservation lapses into a DISCHARGE check record; the account is not
changed. -/
def execDischargeExpiry (lane : Nat) (s : State) : Result :=
  if s.working then
    match s.expiring lane .discharge with
    | some r =>
      ((s.endReservation r).opLapseDischarge r.lane r.ramp r.delta r.zone).event s [expiredNotice r] []
    | none => .next s
  else .next s

end Sys2Proof.Machine
end

