-- ==== Sys2Proof/Machine/Profile.lean ====
section
/-! DEFINITION. The ship profile (spec/01): DEF_LANE, DEF_ZONE, DEF_RAMP, DEF_SECTION, DEF_SHIP, SEAL and
CLEAR_PLAN. -/

namespace Sys2Proof.Machine

/-! Shared forms -/

/-- The number of the first check that fails. -/
def firstFailing (checks : List (Nat × Bool)) : Option Nat := (checks.find? fun c => !c.2).map (·.1)

/-- `lo ≤ v ≤ hi`. -/
def within (lo hi v : Nat) : Bool := decide (lo ≤ v) && decide (v ≤ hi)

/-- The checks that open every DEF_ request: authority, mode, then payload length and record number as
field 0 (R3, R152). -/
def defOpens (st : Station) (s : State) (formOk numberOk : Bool) (k : Taken) : Taken :=
  if st ≠ .loading then refuse s .authority
  else if s.mode ≠ .profile then refuse s .mode
  else if !(formOk && numberOk) then refuseAt s 0
  else k

/-- The removal form (R3). -/
def removeRecordForm (s : State) (defined : Bool) (removed : State) : Taken :=
  if defined then acknowledge removed [] else refuse s .unknown

/-! DEF_LANE -/

/-- The run-time fields at the values SEAL gives them (Table 1-8). -/
def newLane (p : LaneProfile) : Lane where
  profile := p
  entries := []
  check := none
  closed := false
  level := 4
  mass := 0
  revision := 0
  clearance := p.baseClearance

/-- The lane profile in a DEF_LANE payload, each code outside its set standing for some value of the
field; `laneChecks` says which fields pass. -/
def readLaneProfile (p : List Byte) : LaneProfile where
  deck := natOf (field p 1 1)
  row := natOf (field p 2 1)
  length := natOf (field p 3 2)
  closedEnd := natOf (field p 5 2)
  direction := (directionOf (natOf (field p 7 1))).getD .fore
  arm := intOf (field p 8 2)
  baseClearance := natOf (field p 10 2)
  massCap := natOf (field p 12 2)
  sockets := natOf (field p 14 1)
  dgPermitted := (flagOf (natOf (field p 15 1))).getD false
  kinds := (kindSetOf (natOf (field p 16 1))).getD
    { trailer := false, rigid := false, car := false, cassette := false }
  relation := (relationOf (natOf (field p 17 1)) (natOf (field p 18 1))).getD .none

/-- The checks of R4 in order: the fields of Table 1-2, then the lane within the ship at field 3. -/
def laneChecks (p : List Byte) : List (Nat × Bool) :=
  let l := readLaneProfile p
  [ (1, within 1 4 l.deck),
    (2, within 1 12 l.row),
    (3, within 60 2400 l.length),
    (4, within 0 2400 l.closedEnd),
    (5, (directionOf (natOf (field p 7 1))).isSome),
    (6, decide (-1600 ≤ l.arm) && decide (l.arm ≤ 1600)),
    (7, within 150 700 l.baseClearance),
    (8, within 10 9000 l.massCap),
    (9, within 0 8 l.sockets),
    (10, (flagOf (natOf (field p 15 1))).isSome),
    (11, (kindSetOf (natOf (field p 16 1))).isSome),
    (12, (relationOf (natOf (field p 17 1)) (natOf (field p 18 1))).isSome),
    (3, l.fits) ]

/-- DEF_LANE (R3, R4): 19 bytes, or the record number alone. That the record in the ACK begins with its
number is the model's choice, as in the ACKs of DEF_ZONE, DEF_RAMP and DEF_SECTION
(notes/assumptions/10.md). -/
def handleDefLane (st : Station) (p : List Byte) (s : State) : Taken :=
  let n := natOf (field p 0 1)
  defOpens st s (decide (p.length = 1) || decide (p.length = 19)) (within 1 Config.laneCount n)
    (if p.length = 1 then
      removeRecordForm s (s.lanes.get n).isSome { s with lanes := s.lanes.erase n }
    else match firstFailing (laneChecks p) with
      | some k => refuseAt s k
      | none =>
        acknowledge { s with lanes := s.lanes.set n (newLane (readLaneProfile p)) }
          (u8 n ++ encLaneProfile (readLaneProfile p)))

/-- DEF_LANE. -/
def execDefLane (st : Station) (s : State) : Result := s.takeKind st 0x01 handleDefLane

/-! DEF_ZONE -/

/-- The zone record in a DEF_ZONE payload. -/
def readZone (p : List Byte) : Zone where
  deck := natOf (field p 1 1)
  aft := natOf (field p 2 2)
  fore := natOf (field p 4 2)
  cap := natOf (field p 6 2)
  confirmed := 0
  pendingLoad := 0

/-- The checks of R6 in order. -/
def zoneChecks (z : Zone) : List (Nat × Bool) :=
  [ (1, within 1 4 z.deck),
    (2, within 0 2399 z.aft),
    (3, within 1 2400 z.fore),
    (4, within 1 65000 z.cap),
    (3, decide (z.aft < z.fore)) ]

/-- A zone record in the order of Table 1-3. -/
def encZone (z : Zone) : List Byte := u8 z.deck ++ u16 z.aft ++ u16 z.fore ++ u16 z.cap

/-- DEF_ZONE (R3, R6): 8 bytes, or the record number alone. The ACK begins with
the number (notes/assumptions/10.md). -/
def handleDefZone (st : Station) (p : List Byte) (s : State) : Taken :=
  let n := natOf (field p 0 1)
  defOpens st s (decide (p.length = 1) || decide (p.length = 8)) (within 1 Config.zoneCount n)
    (if p.length = 1 then
      removeRecordForm s (s.zones.get n).isSome { s with zones := s.zones.erase n }
    else match firstFailing (zoneChecks (readZone p)) with
      | some k => refuseAt s k
      | none =>
        acknowledge { s with zones := s.zones.set n (readZone p) } (u8 n ++ encZone (readZone p)))

/-- DEF_ZONE. -/
def execDefZone (st : Station) (s : State) : Result := s.takeKind st 0x02 handleDefZone

/-! DEF_RAMP -/

/-- The position, from `at_`, of the first element that is out of range or repeats an earlier one (R7). -/
def badReach (earlier : List Nat) (at_ : Nat) (elements : List Nat) : Option Nat :=
  match elements with
  | [] => none
  | e :: rest =>
    if !within 1 Config.laneCount e || earlier.contains e then some at_
    else badReach (e :: earlier) (at_ + 1) rest

/-- A ramp row at the values SEAL gives it (Table 1-8). -/
def newRamp (reach : List Nat) : Ramp where
  reach := reach
  mask := 7
  suspended := false
  count := 0

/-- DEF_RAMP (R3, R7): record number, count, elements; or the record number alone. The ACK begins with the
number (notes/assumptions/10.md). -/
def handleDefRamp (st : Station) (p : List Byte) (s : State) : Taken :=
  let n := natOf (field p 0 1)
  let reach := (p.drop 2).map (·.toNat)
  defOpens st s
    (decide (p.length = 1) || (decide (2 ≤ p.length) && decide (natOf (field p 1 1) = reach.length)))
    (within 1 Config.rampCount n)
    (if p.length = 1 then
      removeRecordForm s (s.ramps.get n).isSome { s with ramps := s.ramps.erase n }
    else if !within 1 24 reach.length then refuseAt s 1 0
    else match badReach [] 1 reach with
      | some at_ => refuseAt s 1 at_
      | none =>
        acknowledge { s with ramps := s.ramps.set n (newRamp reach) } (u8 n ++ encNums reach))

/-- DEF_RAMP. -/
def execDefRamp (st : Station) (s : State) : Result := s.takeKind st 0x03 handleDefRamp

/-! DEF_SECTION -/

/-- The clearances in a DEF_SECTION payload. -/
def readClearances (p : List Byte) : Clearances where
  aboveRaised := natOf (field p 1 2)
  aboveMid := natOf (field p 3 2)
  aboveLowered := natOf (field p 5 2)
  beneathRaised := natOf (field p 7 2)
  beneathMid := natOf (field p 9 2)
  beneathLowered := natOf (field p 11 2)

/-- The checks of R8 in order: the ranges, then the geometry. -/
def clearanceChecks (c : Clearances) : List (Nat × Bool) :=
  [ (1, within 150 700 c.aboveRaised),
    (2, within 150 700 c.aboveMid),
    (3, within 150 700 c.aboveLowered),
    (4, within 150 700 c.beneathRaised),
    (5, within 150 700 c.beneathMid),
    (6, within 150 700 c.beneathLowered),
    (2, decide (c.aboveRaised ≤ c.aboveMid)),
    (3, decide (c.aboveMid ≤ c.aboveLowered)),
    (5, decide (c.beneathMid ≤ c.beneathRaised)),
    (6, decide (c.beneathLowered ≤ c.beneathMid)) ]

/-- The clearances in the order of Table 1-5. -/
def encClearances (c : Clearances) : List Byte :=
  u16 c.aboveRaised ++ u16 c.aboveMid ++ u16 c.aboveLowered ++ u16 c.beneathRaised ++
    u16 c.beneathMid ++ u16 c.beneathLowered

/-- A section before its position is read. -/
def newSection (c : Clearances) : Sect where
  clearances := c
  position := none
  state := .atPosition
  origin := none
  target := none
  faultHeld := false
  cause := none
  timer := 0

/-- DEF_SECTION (R3, R8): 13 bytes, or the record number alone. The ACK begins with
the number (notes/assumptions/10.md). -/
def handleDefSection (st : Station) (p : List Byte) (s : State) : Taken :=
  let n := natOf (field p 0 1)
  defOpens st s (decide (p.length = 1) || decide (p.length = 13)) (within 1 Config.sectionCount n)
    (if p.length = 1 then
      removeRecordForm s (s.sections.get n).isSome { s with sections := s.sections.erase n }
    else match firstFailing (clearanceChecks (readClearances p)) with
      | some k => refuseAt s k
      | none =>
        acknowledge { s with sections := s.sections.set n (newSection (readClearances p)) }
          (u8 n ++ encClearances (readClearances p)))

/-- DEF_SECTION. -/
def execDefSection (st : Station) (s : State) : Result := s.takeKind st 0x04 handleDefSection

/-! DEF_SHIP -/

/-- DEF_SHIP (R3, R9): lashing gap (1 byte) and segregation distance (2 bytes), or no payload. That the ACK of
the form without payload carries nothing is the model's choice (notes/assumptions/10.md): R3 has the ACK of a
DEF_ request carry the record as stored, R9 says so of the usual form alone. -/
def handleDefShip (st : Station) (p : List Byte) (s : State) : Taken :=
  let gap := natOf (field p 0 1)
  let seg := natOf (field p 1 2)
  defOpens st s (decide (p.length = 0) || decide (p.length = 3)) true
    (if p.length = 0 then
      acknowledge
        { s with gap := Config.defaultGap, segregation := Config.defaultSegregation } []
    else match firstFailing [(1, within 0 10 gap), (2, within 0 300 seg)] with
      | some k => refuseAt s k
      | none => acknowledge { s with gap := gap, segregation := seg } (u8 gap ++ u16 seg))

/-- DEF_SHIP. -/
def execDefShip (st : Station) (s : State) : Result := s.takeKind st 0x05 handleDefShip

/-! SEAL -/

/-- Every pair of records, lower number first, in ascending order (R10). -/
def pairsOf {α : Type} (t : Table α) : List ((Nat × α) × (Nat × α)) :=
  match t with
  | [] => []
  | a :: rest => rest.map (fun b => (a, b)) ++ pairsOf rest

/-- LANE_OVERLAP (R11): lanes of one deck and row whose extents overlap. -/
def laneOverlap (a b : Nat × Lane) : Bool :=
  decide (a.2.profile.deck = b.2.profile.deck) && decide (a.2.profile.row = b.2.profile.row) &&
    a.2.profile.extent.overlaps b.2.profile.extent

/-- ZONE_OVERLAP (R11): zones of one deck that overlap. -/
def zoneOverlap (a b : Nat × Zone) : Bool :=
  decide (a.2.deck = b.2.deck) &&
    Span.overlaps { lo := a.2.aft, hi := a.2.fore } { lo := b.2.aft, hi := b.2.fore }

/-- REACH_UNDEFINED (R12): the first element of a ramp's list that names an undefined lane. -/
def reachUndefined (s : State) (r : Nat × Ramp) : Option (List Byte) :=
  ((r.2.reach.zipIdx 1).find? fun e => (s.lanes.get e.1).isNone).map fun e =>
    u8 r.1 ++ u8 e.2 ++ u8 e.1

/-- SECTION_UNDEFINED (R12). -/
def sectionUndefined (s : State) (l : Nat × Lane) : Option (List Byte) :=
  l.2.profile.relation.section?.bind fun n =>
    if (s.sections.get n).isNone then some (u8 l.1 ++ u8 n) else none

/-- SECTION_POSITION (R13): a defined section without exactly one input asserted. -/
def sectionUnplaced (s : State) (c : Nat × Sect) : Option (List Byte) :=
  if inputCount (s.sectionInputs c.1) = 1 then none
  else some (u8 c.1 ++ u8 (inputCount (s.sectionInputs c.1)))

/-- The first failure of Table 1-7: the item code and its detail. -/
def sealFailure (s : State) : Option (List Byte) :=
  if s.lanes.isEmpty then some (u8 1)
  else if s.ramps.isEmpty then some (u8 2)
  else match (pairsOf s.lanes).find? fun p => laneOverlap p.1 p.2 with
  | some p => some (u8 3 ++ u8 p.1.1 ++ u8 p.2.1)
  | none => match (pairsOf s.zones).find? fun p => zoneOverlap p.1 p.2 with
  | some p => some (u8 4 ++ u8 p.1.1 ++ u8 p.2.1)
  | none => match s.ramps.findSome? (reachUndefined s) with
  | some d => some (u8 5 ++ d)
  | none => match s.lanes.findSome? (sectionUndefined s) with
  | some d => some (u8 6 ++ d)
  | none => match s.sections.findSome? (sectionUnplaced s) with
  | some d => some (u8 7 ++ d)
  | none => none

/-- A section at the position its inputs show (Table 1-8, R13). -/
def startSection (s : State) (n : Nat) (c : Sect) : Sect :=
  { newSection c.clearances with position := shownPosition (s.sectionInputs n) }

/-- A lane's run-time state after SEAL (Table 1-8, R37): a lane with a section relation has its current
clearance from the section's starting position. -/
def startLane (s : State) (l : Lane) : Lane :=
  let fresh := newLane l.profile
  match l.profile.relation.section? with
  | none => fresh
  | some n =>
    match s.sections.get n, shownPosition (s.sectionInputs n) with
    | some c, some p => { fresh with clearance := fresh.clearanceAt c.clearances n p }
    | _, _ => fresh

/-- The state of Table 1-8. -/
def sealed (s : State) : State :=
  { s with
    isSealed := true
    lanes := s.lanes.mapAll (startLane s)
    zones := s.zones.mapAll fun z => { z with confirmed := 0, pendingLoad := 0 }
    ramps := s.ramps.mapAll fun r => newRamp r.reach
    sections := s.sections.map fun c => (c.1, startSection s c.1 c.2)
    poolInUse := 0
    account := { s.account with tc := 0, pPlus := 0, pMinus := 0, kp := 0, ks := 0, h := 0 }
    movements := []
    seqNext := 1
    waiting := []
    clock := { now := 0, cutoff := none, reached := false }
    control := { s.control with work := .run } }

/-- SEAL (R10 to R14). R10 has no field check; that a wrong payload length is refused right behind MODE is the
model's choice (notes/assumptions/33.md). -/
def handleSeal (st : Station) (p : List Byte) (s : State) : Taken :=
  if st ≠ .loading then refuse s .authority
  else if s.mode ≠ .profile then refuse s .mode
  else if p.length ≠ 0 then refuseAt s 0
  else match sealFailure s with
    | some d => refuse s .profileInvalid d
    | none => { state := sealed s, reply := .ack [], head := [.mode .run .sealed] }

/-- SEAL. -/
def execSeal (st : Station) (s : State) : Result := s.takeKind st 0x06 handleSeal

/-! CLEAR_PLAN -/

/-- The profile store at its cold-start contents (R1). -/
def State.eraseProfile (s : State) : State :=
  { s with
    lanes := [], zones := [], ramps := [], sections := [], gap := Config.defaultGap,
    segregation := Config.defaultSegregation, isSealed := false, poolInUse := 0 }

/-- A lane holds an entry or a check record. -/
def Lane.occupied (l : Lane) : Bool := !l.entries.isEmpty || l.check.isSome

/-- The state of R17: the waiting units' records return to ANNOUNCED, the clock and the cut-off are
cleared. The divergence count returns to 0, at which it stays in PROFILE (R72, notes/assumptions/32.md). -/
def State.clearPlan (s : State) : State :=
  { s.eraseProfile with
    monitor := { s.monitor with divergence := 0 }
    register := s.register.map fun r => if r.state = .waiting then { r with state := .announced } else r
    waiting := []
    clock := { now := 0, cutoff := none, reached := false }
    control := { s.control with work := .profile } }

/-- CLEAR_PLAN (R16, R17). R16 has no field check, in whose place R152 refuses a wrong payload length; that
it is refused right behind AUTHORITY is the model's choice (notes/assumptions/33.md). -/
def handleClearPlan (st : Station) (p : List Byte) (s : State) : Taken :=
  if st ≠ .loading then refuse s .authority
  else if p.length ≠ 0 then refuseAt s 0
  else if s.mode = .profile then acknowledge s.eraseProfile []
  else if s.lanes.any (fun l => l.2.occupied) || !s.movements.isEmpty then refuse s .notEmpty
  else if s.sections.any fun c => decide (c.2.state = .moving) then refuse s .busy
  else { state := s.clearPlan, reply := .ack [], head := [.mode .profile .clearPlan] }

/-- CLEAR_PLAN. -/
def execClearPlan (st : Station) (s : State) : Result := s.takeKind st 0x07 handleClearPlan

end Sys2Proof.Machine
end

