-- ==== Sys2Proof/Machine/Reads.lean ====
section
/-! DEFINITION. The reads: READ_LANE (spec/02 R35, R36), READ_UNIT (spec/03 R52), READ_ACCOUNT (spec/04
R75), READ_STATE and IDENT (spec/09 R157, R158, spec/12 R174). None changes a block's state. -/

namespace Sys2Proof.Machine

/-- Four elements of a list: page `p` holds positions 4p − 3 to 4p (R36, R157). -/
def pageOf {α : Type} (p : Nat) (xs : List α) : List α := (xs.drop (4 * (p - 1))).take 4

/-! READ_LANE -/

/-- The movement of a lane (Table 2-6): none 0, reservation 1, check record 2. -/
def encLaneMovement (s : State) (n : Nat) (l : Lane) : List Byte :=
  match s.reservationOn n, l.check with
  | some r, _ => u8 1 ++ u8 (moveKindCode r.kind) ++ encBooking r.booking ++ u8 r.ramp
  | none, some c => u8 2 ++ encCheck c
  | none, none => u8 0

/-- The summary of Table 2-6. -/
def laneSummary (s : State) (n : Nat) (l : Lane) : List Byte :=
  encLaneProfile l.profile ++
    u16 l.clearance ++ u16 (s.laneEnd l) ++ u8 (fillCode (s.fill l)) ++ u8 (displayedCode (s.displayed l)) ++
    u8 (flagCode l.inService) ++ u8 (lampCode (s.lamp l)) ++ u16 l.mass ++ u8 l.reeferCount ++
    u8 l.level ++ u8 (flagCode l.closed) ++ encLaneMovement s n l

/-- Lane, page, revision, entry count and page count (R35, R174). -/
def laneHeader (n page : Nat) (l : Lane) : List Byte :=
  u8 n ++ u8 page ++ u16 l.revision ++ u8 l.entries.length ++ u8 ((l.entries.length + 3) / 4)

/-- READ_LANE lane, page (R35, R36). -/
def handleReadLane (_ : Station) (p : List Byte) (s : State) : Taken :=
  let n := natOf (field p 0 1)
  let page := natOf (field p 1 1)
  if s.mode = .profile then refuse s .mode
  else if p.length ≠ 2 then refuseAt s 0
  else if !laneNumberOk n then refuseAt s 1
  else if 6 < page then refuseAt s 2
  else match s.lanes.get n with
    | none => refuse s .unknown
    | some l =>
      acknowledge s (laneHeader n page l ++
        if page = 0 then laneSummary s n l else (pageOf page l.entries).flatMap encEntry)

/-- READ_LANE. -/
def execReadLane (st : Station) (s : State) : Result := s.takeKind st 0x50 handleReadLane

/-! READ_UNIT -/

/-- What the answer from the register adds for a record's state (Table 3-6). -/
def recordExtras (s : State) (r : UnitRecord) : List Byte :=
  match r.state with
  | .announced => []
  | .excluded => []
  | .waiting =>
    (s.waitingAt r.booking).toList.flatMap fun w =>
      u8 w.2.ramp ++ u8 w.1 ++ u8 w.2.retries ++ encReasons w.2.reasons
  | .reserved =>
    (s.findEntry r.booking).toList.flatMap fun f =>
      u8 f.laneNo ++ u16 f.entry.offset ++
        u16 (f.lane.profile.centre f.entry.offset f.entry.unit.length).toNat ++
        (s.reservationOn f.laneNo).toList.flatMap fun v => u8 v.ramp ++ u32 v.seq ++ u16 v.seconds
  | .check =>
    (s.findLoadCheck r.booking).toList.flatMap fun c => u8 c.1 ++ u16 c.2.offset ++ u8 c.2.ramp

/-- What the answer from a lane adds for an entry (Table 3-6). The indication of a DISCHARGE check record is
the movement kind's code ahead of the ramp, and without one no byte stands: the model's choice
(notes/assumptions/10.md). -/
def entryExtras (s : State) (f : Found) : List Byte :=
  match f.entry.state with
  | .leaving =>
    (s.reservationOn f.laneNo).toList.flatMap fun v => u8 v.ramp ++ u32 v.seq ++ u16 v.seconds
  | .stowed =>
    if f.position = f.lane.entries.length then
      f.lane.check.toList.flatMap fun c =>
        if c.kind = .discharge then u8 (moveKindCode .discharge) ++ u8 c.ramp else []
    else []
  | .reserved => []

/-- READ_UNIT booking (R52): source REGISTER 1, LANE 2. -/
def handleReadUnit (_ : Station) (p : List Byte) (s : State) : Taken :=
  if p.length ≠ 10 then refuseAt s 0
  else match decBooking p with
  | none => refuseAt s 1
  | some b =>
    match s.findRecord b, s.findEntry b with
    | some r, _ => acknowledge s (u8 1 ++ encRecord r ++ recordExtras s r)
    | none, some f =>
      acknowledge s (u8 2 ++ u8 f.laneNo ++ u8 f.position ++ encEntry f.entry ++ entryExtras s f)
    | none, none => refuse s .unknown

/-- READ_UNIT. -/
def execReadUnit (st : Station) (s : State) : Result := s.takeKind st 0x51 handleReadUnit

/-! READ_ACCOUNT -/

/-- The tank report: a presence byte and Ta, its age, whether it is stale (Table 4-6, R172). -/
def encTank (t : Option TankReport) : List Byte :=
  match t with
  | some r => u8 1 ++ i32 r.ta ++ u8 r.age ++ u8 (flagCode r.stale)
  | none => u8 0 ++ i32 0 ++ u8 0 ++ u8 0

/-- Page 0 of Table 4-6. -/
def accountSummary (s : State) : List Byte :=
  let a := s.account
  let m := s.monitor
  i32 a.tc ++ i32 a.pPlus ++ i32 a.pMinus ++ i32 a.upper ++ i32 a.lower ++
    i32 a.kp ++ i32 a.ks ++ i32 a.h ++ i32 s.heff ++ i32 s.upperLimit ++ i32 s.lowerLimit ++
    encTank m.tank ++ i16 s.predicted ++ encHeelOpt m.measured ++ u8 m.history.length ++
    u16 m.kh ++ i16 m.offset ++ i16 m.tolerance ++ u8 (monitorStateCode m.state) ++
    u8 m.rail ++ u8 m.qualified ++ u8 m.divergence ++ u8 (flagCode m.stop)

/-- One zone of pages 1 and 2 (Table 4-6). -/
def encZoneState (z : Option Zone) : List Byte :=
  match z with
  | some v => u8 (flagCode true) ++ u16 v.cap ++ u16 v.confirmed ++ u16 v.pendingLoad
  | none => u8 (flagCode false)

/-- READ_ACCOUNT page (R75). -/
def handleReadAccount (_ : Station) (p : List Byte) (s : State) : Taken :=
  let page := natOf p
  if p.length ≠ 1 then refuseAt s 0
  else if 2 < page then refuseAt s 1
  else
    acknowledge s (u8 page ++ u16 s.account.revision ++
      if page = 0 then accountSummary s
      else (List.range 8).flatMap fun i => encZoneState (s.zones.get (8 * (page - 1) + i + 1)))

/-- READ_ACCOUNT. -/
def execReadAccount (st : Station) (s : State) : Result := s.takeKind st 0x52 handleReadAccount

/-! READ_STATE -/

/-- How many records are in a state (R42). -/
def State.recordsIn (s : State) (u : UnitState) : Nat :=
  (s.register.filter fun r => decide (r.state = u)).length

/-- A ramp of page 0 (R79). -/
def encRampState (r : Option Ramp) : List Byte :=
  match r with
  | some v => u8 (flagCode true) ++ u8 v.mask ++ u8 (flagCode v.suspended) ++ u8 v.count
  | none => u8 (flagCode false)

/-- Page 0 of Table 9-2. Presence and line-ready state stand station by station: the model's choice
(notes/assumptions/10.md). -/
def stateSummary (s : State) : List Byte :=
  u8 (modeCode s.mode) ++ u8 (flagCode s.isSealed) ++ u8 (flagCode s.control.keyLocked) ++
    allStations.flatMap (fun st =>
      u8 (flagCode (s.stations.get st).present) ++ u8 (flagCode (s.links.get st).ready)) ++
    u32 (optNat s.clock.cutoff) ++ u8 (flagCode s.clock.reached) ++ u8 (flagCode s.monitor.stop) ++
    u16 s.poolInUse ++ u16 s.register.length ++
    [UnitState.announced, .waiting, .reserved, .check, .excluded].flatMap (fun u => u16 (s.recordsIn u)) ++
    u8 s.waiting.length ++
    [1, 2, 3, 4].flatMap fun r => encRampState (s.fittedRamp r)

/-- A reservation of pages 1 to 4. -/
def encReservation (r : Reservation) : List Byte :=
  u8 (moveKindCode r.kind) ++ u8 r.lane ++ u8 r.ramp ++ encBooking r.booking ++ u32 r.seq ++ u16 r.seconds

/-- The inputs found asserted, as the codes of their positions (Table 12-3). -/
def assertedInputs (i : Inputs) : List Nat :=
  (if i.raised then [1] else []) ++ (if i.mid then [2] else []) ++ if i.lowered then [3] else []

/-- A section of page 5 (R137); the inputs found asserted are a list, a count byte ahead of the codes
(R173). A stopped move timer is reported as 0 (notes/assumptions/35.md). -/
def encSectionState (s : State) (n : Nat) : List Byte :=
  match s.fittedSection n with
  | some c =>
    u8 (flagCode true) ++ u8 (sectStateCode c.state) ++ u8 (positionCode c.position) ++
      u8 (positionCode c.target) ++ u8 (flagCode c.faultHeld) ++
      u8 (match c.cause with | some f => faultCauseCode f | none => 0) ++ u16 c.timer ++
      encNums (assertedInputs (s.sectionInputs n))
  | none => u8 (flagCode false)

/-- READ_STATE page (R157). The reservations of pages 1 to 4 are a list, a count byte ahead of them (R173). -/
def handleReadState (_ : Station) (p : List Byte) (s : State) : Taken :=
  let page := natOf p
  if p.length ≠ 1 then refuseAt s 0
  else if 5 < page then refuseAt s 1
  else
    acknowledge s (u8 page ++ u32 s.clock.now ++ u8 s.movements.length ++
      if page = 0 then stateSummary s
      else if page = 5 then [1, 2, 3, 4, 5, 6].flatMap (encSectionState s)
      else encList encReservation (pageOf page s.movements))

/-- READ_STATE. -/
def execReadState (st : Station) (s : State) : Result := s.takeKind st 0x53 handleReadState

/-! IDENT -/

/-- The link rate in effect as IDENT reports it: the strap settings 0 to 4, and 0 for the others
(Table 11-3, R174). -/
def rateCode (straps : BitVec 3) : Nat := if straps.toNat ≤ 4 then straps.toNat else 0

/-- The capacities of Table 9-3. -/
def capacities : List Nat :=
  [Config.laneCount, Config.zoneCount, Config.rampCount, Config.sectionCount, Config.registerSize,
    Config.poolSize, Config.laneEntries, Config.reservations, Config.waitingSize]

/-- IDENT (R158, R174). -/
def handleIdent (_ : Station) (p : List Byte) (s : State) : Taken :=
  if p.length ≠ 0 then refuseAt s 0
  else
    acknowledge s (u16 Config.vendorCode ++ u16 Config.partCode ++ u8 Config.revisionMajor ++
      u8 Config.revisionMinor ++ u8 (rateCode s.control.rateStraps) ++ capacities.flatMap u16)

/-- IDENT. -/
def execIdent (st : Station) (s : State) : Result := s.takeKind st 0x54 handleIdent

end Sys2Proof.Machine
end

