-- ==== Sys2Proof/Machine/Register.lean ====
section
/-! DEFINITION. The Unit Register's requests (spec/03): ANNOUNCE and WITHDRAW; SEND_BACK of the Waiting
List (spec/07 R129). -/

namespace Sys2Proof.Machine

/-- ANNOUNCE booking, unit fields (R46, R47): 20 bytes. The ACK carries the record as stored and whether
it was created (1) or replaced (2). -/
def handleAnnounce (st : Station) (p : List Byte) (s : State) : Taken :=
  let raw := rawUnit (p.drop 10)
  if st ≠ .yard then refuse s .authority
  else if p.length ≠ 20 then refuseAt s 0
  else match decBooking (field p 0 10) with
  | none => refuseAt s 1
  | some b =>
    match raw.badField with
    | some k => refuseAt s k
    | none =>
      let unit : UnitRecord :=
        { booking := b, fields := raw.fields, unannounced := false, state := .announced }
      if (s.findEntry b).isSome then refuse s .inUse
      else match s.findRecord b with
      | some old =>
        if old.state = .announced ∨ old.state = .excluded then
          acknowledge (s.putRecord unit) (encRecord unit ++ u8 2)
        else refuse s .inUse
      | none =>
        if Config.registerSize ≤ s.register.length then refuse s .full
        else acknowledge (s.putRecord unit) (encRecord unit ++ u8 1)

/-- ANNOUNCE. -/
def execAnnounce (st : Station) (s : State) : Result := s.takeKind st 0x20 handleAnnounce

/-- WITHDRAW booking (R48, R130). The ACK carries the state the record was in. -/
def handleWithdraw (st : Station) (p : List Byte) (s : State) : Taken :=
  if st ≠ .yard then refuse s .authority
  else if p.length ≠ 10 then refuseAt s 0
  else match decBooking p with
  | none => refuseAt s 1
  | some b =>
    match s.findRecord b with
    | some unit =>
      match unit.state with
      | .announced => acknowledge (s.removeRecord b) (u8 (unitStateCode unit.state))
      | .excluded => acknowledge (s.removeRecord b) (u8 (unitStateCode unit.state))
      | .waiting =>
        { state := (s.dropWaiting b).removeRecord b,
          reply := .ack (u8 (unitStateCode unit.state)),
          head := (s.waitingAt b).toList.map fun w => .withdrawn w.2.ramp b w.1 w.2.retries }
      | .reserved => refuse s .inUse
      | .check => refuse s .inUse
    | none => if (s.findEntry b).isSome then refuse s .inUse else refuse s .unknown

/-- WITHDRAW. -/
def execWithdraw (st : Station) (s : State) : Result := s.takeKind st 0x21 handleWithdraw

/-- SEND_BACK booking (R129). Where no record holds the booking, the UNKNOWN refusal carries no byte for the
absent state: the model's choice (notes/assumptions/10.md). -/
def handleSendBack (st : Station) (p : List Byte) (s : State) : Taken :=
  if !isRampStation st then refuse s .authority
  else if s.mode = .profile then refuse s .mode
  else if p.length ≠ 10 then refuseAt s 0
  else match decBooking p with
  | none => refuseAt s 1
  | some b =>
    match s.waitingAt b with
    | none =>
      refuse s .unknown ((s.findRecord b).toList.flatMap fun r => u8 (unitStateCode r.state))
    | some w =>
      if rampOf st ≠ some w.2.ramp then refuse s .mismatch (u8 w.2.ramp)
      else
        acknowledge ((s.dropWaiting b).setUnitState b .announced)
          (encBooking b ++ u8 w.1 ++ u8 w.2.retries ++ encReasons w.2.reasons)

/-- SEND_BACK. -/
def execSendBack (st : Station) (s : State) : Result := s.takeKind st 0x33 handleSendBack

end Sys2Proof.Machine
end

