-- ==== Sys2Proof/Machine/Sections.lean ====
section
/-! DEFINITION. The Deck Section Controller (spec/08): MOVE, CANCEL_MOVE, CLEAR_FAULT,
SECTION_INPUT_CHANGE and MOVE_TIMER_EXPIRY. -/

namespace Sys2Proof.Machine

/-! What replies carry -/

/-- State, position and target, as a reply to CANCEL_MOVE carries them (R143). -/
def encSectBrief (c : Sect) : List Byte :=
  u8 (sectStateCode c.state) ++ u8 (positionCode c.position) ++ u8 (positionCode c.target)

/-- State, position, target and fault-held flag, as a reply to MOVE carries them (R140). -/
def encSect (c : Sect) : List Byte := encSectBrief c ++ u8 (flagCode c.faultHeld)

/-- What `f` gives of section `n` as it stands in `s`. -/
def State.ofSection (s : State) (n : Nat) (f : Sect → List Byte) : List Byte :=
  match s.sections.get n with
  | some c => f c
  | none => []

/-! The lanes of a section -/

/-- The lanes ON section `n`, ascending. -/
def State.lanesOn (s : State) (n : Nat) : List (Nat × Lane) := s.lanes.filter fun p => p.2.isOn n

/-- The lanes BENEATH section `n`, ascending. -/
def State.lanesBeneath (s : State) (n : Nat) : List (Nat × Lane) := s.lanes.filter fun p => p.2.isBeneath n

/-- The first lane ON section `n` that holds an entry or carries a LOAD check record, with its number of
units (R140, check 8). -/
def State.loadedLane (s : State) (n : Nat) : Option (Nat × Nat) :=
  ((s.lanesOn n).find? fun p => !p.2.units.isEmpty).map fun p => (p.1, p.2.units.length)

/-- A unit beneath a section, with where it stands. -/
structure Standing where
  height : Nat
  lane : Nat
  booking : Booking
  deriving DecidableEq, Repr

/-- The units beneath section `n`, lowest lane first, each lane from its closed end (R140, check 9). -/
def State.unitsBeneath (s : State) (n : Nat) : List Standing :=
  (s.lanesBeneath n).flatMap fun p =>
    p.2.units.map fun u => { height := u.2.height, lane := p.1, booking := u.1 }

/-- The tallest of some units, the first where several are equally tall (R140, check 9). -/
def tallest (us : List Standing) : Option Standing :=
  us.foldl (fun best u => match best with
    | none => some u
    | some b => if b.height < u.height then some u else some b) none

/-! MOVE -/

/-- What a refusal of checks 1 to 3 carries of the fitted section that the first payload byte names; an
empty payload and a number without a fitted section carry nothing (R140, R143,
notes/assumptions/31.md). -/
def State.namedSection (s : State) (p : List Byte) (f : Sect → List Byte) : List Byte :=
  (s.fittedSection (natOf (field p 0 1))).toList.flatMap f

/-- The checks MOVE, CANCEL_MOVE and CLEAR_FAULT share (R140, checks 1 to 4): authority, mode, the
fields, a fitted section. `shown` is what a reply carries of the section. -/
def sectionRequest (st : Station) (p : List Byte) (s : State) (len : Nat) (otherFieldsOk : Bool)
    (shown : Sect → List Byte) (k : Nat → Sect → Taken) : Taken :=
  let n := natOf (field p 0 1)
  if st ≠ .loading then refuse s .authority (s.namedSection p shown)
  else if s.mode = .profile then refuse s .mode (s.namedSection p shown)
  else if p.length ≠ len then refuseAt s 0 0 (s.namedSection p shown)
  else if !sectionNumberOk n then refuseAt s 1
  else if !otherFieldsOk then refuseAt s 2 0 (s.namedSection p shown)
  else match s.fittedSection n with
    | none => refuse s .unknown
    | some c => k n c

/-- A MOVE that passes its checks (R141): it waits for the lanes with a pending movement, or starts. -/
def startMove (s : State) (n : Nat) (target : Position) : Taken :=
  let waits := s.pendingLanes n
  if waits.isEmpty then
    let t := s.onSection n (Sect.toMoving (some target))
    { state := t, reply := .ack (t.ofSection n encSect),
      tail := t.sectionNotice n .atPosition .move }
  else
    let t := s.onSection n fun c => { c with state := .movePending, target := some target }
    { state := t, reply := .ack (t.ofSection n encSect ++ encNums waits),
      tail := t.sectionNotice n .atPosition .move }

/-- MOVE of a fitted section from check 5 on (R140). -/
def moveSection (target : Position) (s : State) (n : Nat) (c : Sect) : Taken :=
  if c.holds ∧ c.position = some target then acknowledge s (encSect c)
  else match c.state with
  | .movePending => refuse s .busy (encSect c)
  | .moving => refuse s .busy (encSect c)
  | .fault => refuse s .sectionFault (encSect c)
  | .atPosition =>
    match s.loadedLane n with
    | some x => refuse s .loaded (u8 x.1 ++ u8 x.2 ++ encSect c)
    | none =>
      match tallest (s.unitsBeneath n) with
      | none => startMove s n target
      | some u =>
        if c.clearances.beneath target < u.height then
          refuse s .clearance
            (u16 (c.clearances.beneath target) ++ u16 u.height ++ u8 u.lane ++ encBooking u.booking ++
              encSect c)
        else startMove s n target

/-- MOVE section, position (R140, R141). -/
def handleMove (st : Station) (p : List Byte) (s : State) : Taken :=
  let target := positionOf (natOf (field p 1 1))
  sectionRequest st p s 2 target.isSome encSect (moveSection (target.getD .raised) s)

/-- MOVE. -/
def execMove (st : Station) (s : State) : Result := s.takeKind st 0x13 handleMove

/-! CANCEL_MOVE -/

/-- CANCEL_MOVE of a fitted section (R143). -/
def cancelSection (s : State) (n : Nat) (c : Sect) : Taken :=
  match c.state with
  | .movePending =>
    if c.faultHeld then refuse s .sectionFault (encSectBrief c)
    else
      let t := s.onSection n fun q => { q with state := .atPosition, target := none }
      { state := t, reply := .ack (t.ofSection n encSectBrief),
        tail := t.sectionNotice n .movePending .cancel, trigger := true }
  | .atPosition => refuse s .noMovement (encSectBrief c)
  | .moving => refuse s .noMovement (encSectBrief c)
  | .fault => refuse s .noMovement (encSectBrief c)

/-- CANCEL_MOVE (R143). -/
def handleCancelMove (st : Station) (p : List Byte) (s : State) : Taken :=
  sectionRequest st p s 1 true encSectBrief (cancelSection s)

/-- CANCEL_MOVE. -/
def execCancelMove (st : Station) (s : State) : Result := s.takeKind st 0x14 handleCancelMove

/-! CLEAR_FAULT -/

/-- The height of a lane's tallest entry, 0 where it has none. -/
def Lane.tallestEntry (l : Lane) : Nat := l.entries.foldl (fun h e => max h e.unit.height) 0

/-- The lanes whose tallest entry exceeds the clearance at position `p`, with the height: the lanes ON the
section, then those BENEATH it, as R147 names them. That each of the two runs in ascending lane number is
the model's choice (notes/assumptions/10.md). -/
def State.overHeight (s : State) (n : Nat) (c : Sect) (p : Position) : List (Nat × Nat) :=
  ((s.lanesOn n ++ s.lanesBeneath n).filter fun q =>
    decide (q.2.clearanceAt c.clearances n p < q.2.tallestEntry)).map fun q => (q.1, q.2.tallestEntry)

/-- A section in FAULT comes to hold the position its inputs show (R147). R147 does not say beside what the
ACK carries the list of over-height lanes; that it carries the list alone is the model's choice
(notes/assumptions/10.md). -/
def clearAt (s : State) (n : Nat) (c : Sect) (p : Position) : Taken :=
  let tall := s.overHeight n c p
  let t := (s.settleAt n p).onSection n fun q => { q with cause := none }
  { state := t,
    reply := .ack (encList (fun q => u8 q.1 ++ u16 q.2) tall),
    tail := t.sectionNotice n .fault .clearFault }

/-- CLEAR_FAULT of a section in FAULT: the inputs are read (R147). -/
def readFault (s : State) (n : Nat) (c : Sect) : Taken :=
  match shownPosition (s.sectionInputs n) with
  | none => refuse s .noPosition (u8 (inputCount (s.sectionInputs n)))
  | some p =>
    match s.loadedLane n with
    | some x => if p = .raised then refuse s .loaded (u8 x.1 ++ u8 x.2) else clearAt s n c p
    | none => clearAt s n c p

/-- CLEAR_FAULT of a fitted section (R147). -/
def clearSection (s : State) (n : Nat) (c : Sect) : Taken :=
  match c.state with
  | .fault => readFault s n c
  | .moving => refuse s .busy
  | .movePending => if c.faultHeld then refuse s .busy else acknowledge s []
  | .atPosition => acknowledge s []

/-- CLEAR_FAULT (R147). -/
def handleClearFault (st : Station) (p : List Byte) (s : State) : Taken :=
  sectionRequest st p s 1 true (fun _ => []) (clearSection s)

/-- CLEAR_FAULT. -/
def execClearFault (st : Station) (s : State) : Result := s.takeKind st 0x15 handleClearFault

/-! Inputs -/

/-- Keeps the levels of a section's inputs; three deasserted inputs are not listed. -/
def State.setInputs (s : State) (n : Nat) (levels : Inputs) : State :=
  { s with
    inputs := if inputCount levels = 0 then s.inputs.erase n else s.inputs.set n levels }

/-- A change of inputs in MOVING (R144, R146). -/
def State.inputsMoving (s : State) (n : Nat) (c : Sect) : State × List Notice :=
  let i := s.sectionInputs n
  match shownPosition i with
  | none =>
    if inputCount i = 0 then (s, [])
    else
      let t := s.onSection n (Sect.toFault .multipleInputs)
      (t, t.sectionNotice n .moving (.fault .multipleInputs))
  | some p =>
    if c.target = some p then
      let t := s.settleAt n p
      (t, t.sectionNotice n .moving .arrival)
    else if c.origin = some p then (s, [])
    else
      let t := s.onSection n (Sect.toFault .wrongInput)
      (t, t.sectionNotice n .moving (.fault .wrongInput))

/-- A change of inputs in AT_POSITION or MOVE_PENDING (R145). -/
def State.inputsHeld (s : State) (n : Nat) (c : Sect) : State × List Notice :=
  if s.inputsAgree n c then (s, [])
  else
    let cause := sensorCause (s.sectionInputs n)
    let t := s.sensorFault n cause
    (t, t.sectionNotice n c.state (.fault cause))

/-- A change of a fitted section's inputs, as its state requires (R138). -/
def State.inputsTaken (s : State) (n : Nat) (c : Sect) : State × List Notice :=
  match c.state with
  | .moving => s.inputsMoving n c
  | .atPosition => s.inputsHeld n c
  | .movePending => s.inputsHeld n c
  | .fault => (s, [])

/-- SECTION_INPUT_CHANGE (R138): the pins take the levels; while the controller watches them, a fitted
section takes the change. -/
def execSectionInputChange (sect : Nat) (levels : Inputs) (s : State) : Result :=
  let t := s.setInputs sect levels
  if !sectionNumberOk sect then .fault (.noSuchTerminal sect)
  else if s.working ∧ s.planMode ∧ s.sectionInputs sect ≠ levels then
    match s.fittedSection sect with
    | some c =>
      let u := t.inputsTaken sect c
      u.1.event s [] u.2
    | none => .next t
  else .next t

/-! The move timer -/

/-- MOVE_TIMER_EXPIRY (R144): the timer of a MOVING section has reached 0. -/
def execMoveTimerExpiry (sect : Nat) (s : State) : Result :=
  match s.fittedSection sect with
  | none => .next s
  | some c =>
    if s.working ∧ c.state = .moving ∧ c.timer = 0 then
      let t := s.onSection sect (Sect.toFault .timeout)
      t.event s [] (t.sectionNotice sect .moving (.fault .timeout))
    else .next s

end Sys2Proof.Machine
end

