-- ==== Sys2Proof/Machine/Stability.lean ====
section
/-! DEFINITION. The Stability Account and the Heel Monitor (spec/04): BAND, HEEL_MODEL, TANKS,
RELEASE_STOP, TANK_REPORT_EXPIRY and SAMPLE. -/

namespace Sys2Proof.Machine

/-- The three band values with the limits that result, as the ACK carries them (R60). -/
def bandReply (s : State) : List Byte :=
  i32 s.account.kp ++ i32 s.account.ks ++ i32 s.account.h ++ i32 s.upperLimit ++ i32 s.lowerLimit

/-- BAND Kp, Ks, H (R60): clamped, stored, the overshoot check and a trigger in RUN and RECOVERY. -/
def handleBand (st : Station) (p : List Byte) (s : State) : Taken :=
  if st ≠ .loading then refuse s .authority
  else if p.length ≠ 12 then refuseAt s 0
  else
    let t : State :=
      { s with
        account :=
          { s.account with
            kp := clampInt 0 400000000 (intOf (field p 0 4))
            ks := clampInt 0 400000000 (intOf (field p 4 4))
            h := clampInt 0 50000000 (intOf (field p 8 4)) } }
    { state := t, reply := .ack (bandReply t), head := t.overshoot false, trigger := t.planMode }

/-- BAND. -/
def execBand (st : Station) (s : State) : Result := s.takeKind st 0x08 handleBand

/-- Replaces the Heel Monitor's record, its counts settled for the change of monitor state (R71). -/
def State.withMonitor (s : State) (m : Monitor) : State :=
  { s with monitor := m.settle s.monitor.state }

/-- HEEL_MODEL Kh, offset, tolerance (R66): the history and the qualified-sample and divergence counts are
cleared; the rail count and the heel stop are kept. -/
def handleHeelModel (st : Station) (p : List Byte) (s : State) : Taken :=
  if st ≠ .loading then refuse s .authority
  else if p.length ≠ 6 then refuseAt s 0
  else
    let t := s.withMonitor
      { s.monitor with
        kh := natOf (field p 0 2)
        offset := clampInt (-200) 200 (intOf (field p 2 2))
        tolerance := clampInt 5 500 (intOf (field p 4 2))
        history := [], qualified := 0, divergence := 0 }
    { state := t,
      reply := .ack (u16 t.monitor.kh ++ i16 t.monitor.offset ++ i16 t.monitor.tolerance),
      head := monitorNotices s.monitor t.monitor }

/-- HEEL_MODEL. -/
def execHeelModel (st : Station) (s : State) : Result := s.takeKind st 0x09 handleHeelModel

/-- TANKS Ta (R64): a fresh report of age 0. -/
def handleTanks (st : Station) (p : List Byte) (s : State) : Taken :=
  let ta := clampInt (-400000000) 400000000 (intOf (field p 0 4))
  if st ≠ .loading then refuse s .authority
  else if p.length ≠ 4 then refuseAt s 0
  else
    let t := s.withMonitor { s.monitor with tank := some { ta := ta, age := 0, stale := false } }
    { state := t, reply := .ack (i32 ta), head := monitorNotices s.monitor t.monitor }

/-- TANKS. -/
def execTanks (st : Station) (s : State) : Result := s.takeKind st 0x0A handleTanks

/-- The HEEL_STOP notice (R73, R74). -/
def State.stopNotice (s : State) (isSet : Bool) : Notice :=
  .heelStop isSet s.monitor.measured s.predicted s.monitor.tolerance s.monitor.divergence

/-- RELEASE_STOP (R74). R74 has no field check, in whose place R152 refuses a wrong payload length; that it is
refused right behind AUTHORITY is the model's choice (notes/assumptions/33.md). -/
def handleReleaseStop (st : Station) (p : List Byte) (s : State) : Taken :=
  if st ≠ .loading then refuse s .authority
  else if p.length ≠ 0 then refuseAt s 0
  else if !s.monitor.stop then acknowledge s []
  else if 0 < s.monitor.divergence then
    refuse s .stillDivergent
      (u8 s.monitor.divergence ++ encHeelOpt s.monitor.measured ++ i16 s.predicted)
  else
    let t : State := { s with monitor := { s.monitor with stop := false } }
    { state := t, reply := .ack [], head := [t.stopNotice false], trigger := true }

/-- RELEASE_STOP. -/
def execReleaseStop (st : Station) (s : State) : Result := s.takeKind st 0x0B handleReleaseStop

/-- The held report has reached its limit and has not expired yet (R65). -/
def Monitor.expiryDue (m : Monitor) : Bool :=
  match m.tank with
  | some t => !t.stale && decide (Config.tankLimit ≤ t.age)
  | none => false

/-- TANK_REPORT_EXPIRY (R65): the report becomes stale; its value stays. -/
def execTankReportExpiry (s : State) : Result :=
  if s.working ∧ s.monitor.expiryDue then
    let t := s.withMonitor
      { s.monitor with tank := s.monitor.tank.map fun r => { r with stale := true } }
    t.event s (monitorNotices s.monitor t.monitor) []
  else .next s

/-! Samples -/

/-- A rail code (R67): the consecutive rail count rises, saturating at 4. -/
def Monitor.takeRail (m : Monitor) : Monitor :=
  Monitor.settle m.state { m with rail := min 4 (m.rail + 1) }

/-- A valid code (R67, R68): the rail condition ends before the sample is used; the sample joins the
history; in ACTIVE it is counted as qualified. -/
def Monitor.takeValid (m : Monitor) (code : Nat) : Monitor :=
  let a := Monitor.settle m.state { m with rail := 0 }
  { a with
    history := a.history.drop (a.history.length - 3) ++ [(code : Int) - 2048 + a.offset]
    qualified := if a.state = .active then min 4 (a.qualified + 1) else a.qualified }

/-- A comparison is made: ACTIVE, RUN or RECOVERY, four qualified samples (R72). -/
def State.compares (s : State) : Bool :=
  decide (s.monitor.state = .active) && s.planMode && decide (s.monitor.qualified = 4)

/-- The difference exceeds the tolerance (R72). -/
def State.diverges (s : State) (measured : Int) : Bool :=
  decide (s.monitor.tolerance < (measured - s.predicted).natAbs)

/-- The comparison (R72) and the heel stop it may set (R73). -/
def State.compareHeel (s : State) : State × List Notice :=
  match s.monitor.measured with
  | none => (s, [])
  | some a =>
    if s.diverges a then
      let n := min 4 (s.monitor.divergence + 1)
      if n = 4 ∧ s.monitor.divergence ≠ 4 ∧ s.monitor.stop = false then
        let t : State := { s with monitor := { s.monitor with divergence := 4, stop := true } }
        (t, [t.stopNotice true])
      else ({ s with monitor := { s.monitor with divergence := n } }, [])
    else ({ s with monitor := { s.monitor with divergence := 0 } }, [])

/-- What a sample does to the monitor (R67 to R73). -/
def State.takeSample (s : State) (code : Nat) : State × List Notice :=
  if code = 0 ∨ code = 4095 then
    let t : State := { s with monitor := s.monitor.takeRail }
    (t, monitorNotices s.monitor t.monitor)
  else
    let t : State := { s with monitor := s.monitor.takeValid code }
    let c := if t.compares then t.compareHeel else (t, [])
    (c.1, monitorNotices s.monitor t.monitor ++ c.2)

/-- SAMPLE (R67). -/
def execSample (code : BitVec 12) (s : State) : Result :=
  if s.working then
    let t := s.takeSample code.toNat
    t.1.event s t.2 []
  else .next s

end Sys2Proof.Machine
end

