-- ==== Sys2Proof/Machine/Dispatch.lean ====
section
/-! DEFINITION. One arm for each command: a direct call of its meaning. -/

namespace Sys2Proof.Machine

/-- The effect of a command on everything but the queue. -/
def exec (i : Instr) (s : State) : Host.Outcome State Fault Refusal :=
  match i with
  | .defLane st => Sys2Proof.Machine.execDefLane st s
  | .defZone st => Sys2Proof.Machine.execDefZone st s
  | .defRamp st => Sys2Proof.Machine.execDefRamp st s
  | .defSection st => Sys2Proof.Machine.execDefSection st s
  | .defShip st => Sys2Proof.Machine.execDefShip st s
  | .sealPlan st => Sys2Proof.Machine.execSeal st s
  | .clearPlan st => Sys2Proof.Machine.execClearPlan st s
  | .band st => Sys2Proof.Machine.execBand st s
  | .heelModel st => Sys2Proof.Machine.execHeelModel st s
  | .tanks st => Sys2Proof.Machine.execTanks st s
  | .releaseStop st => Sys2Proof.Machine.execReleaseStop st s
  | .timeout st => Sys2Proof.Machine.execTimeout st s
  | .cutoff st => Sys2Proof.Machine.execCutoff st s
  | .clock st => Sys2Proof.Machine.execClock st s
  | .resume st => Sys2Proof.Machine.execResume st s
  | .linkReset st => Sys2Proof.Machine.execLinkReset st s
  | .suspendRamp st => Sys2Proof.Machine.execSuspendRamp st s
  | .resumeRamp st => Sys2Proof.Machine.execResumeRamp st s
  | .move st => Sys2Proof.Machine.execMove st s
  | .cancelMove st => Sys2Proof.Machine.execCancelMove st s
  | .clearFault st => Sys2Proof.Machine.execClearFault st s
  | .announce st => Sys2Proof.Machine.execAnnounce st s
  | .withdraw st => Sys2Proof.Machine.execWithdraw st s
  | .setPriority st => Sys2Proof.Machine.execSetPriority st s
  | .setMask st => Sys2Proof.Machine.execSetMask st s
  | .arrive st => Sys2Proof.Machine.execArrive st s
  | .lashed st => Sys2Proof.Machine.execLashed st s
  | .backout st => Sys2Proof.Machine.execBackout st s
  | .sendBack st => Sys2Proof.Machine.execSendBack st s
  | .unlash st => Sys2Proof.Machine.execUnlash st s
  | .offloaded st => Sys2Proof.Machine.execOffloaded st s
  | .keep st => Sys2Proof.Machine.execKeep st s
  | .closeLane st => Sys2Proof.Machine.execCloseLane st s
  | .openLane st => Sys2Proof.Machine.execOpenLane st s
  | .verify st => Sys2Proof.Machine.execVerify st s
  | .readLane st => Sys2Proof.Machine.execReadLane st s
  | .readUnit st => Sys2Proof.Machine.execReadUnit st s
  | .readAccount st => Sys2Proof.Machine.execReadAccount st s
  | .readState st => Sys2Proof.Machine.execReadState st s
  | .ident st => Sys2Proof.Machine.execIdent st s
  | .subscribe st => Sys2Proof.Machine.execSubscribe st s
  | .unknownMessageKind st => Sys2Proof.Machine.execUnknownMessageKind st s
  | .frameReceived st bytes => Sys2Proof.Machine.execFrameReceived st bytes s
  | .interbyteTimeout st => Sys2Proof.Machine.execInterbyteTimeout st s
  | .frameSent st => Sys2Proof.Machine.execFrameSent st s
  | .lineBreak st => Sys2Proof.Machine.execLineBreak st s
  | .lineReadyChange st asserted => Sys2Proof.Machine.execLineReadyChange st asserted s
  | .quietLimit st => Sys2Proof.Machine.execQuietLimit st s
  | .loadExpiry lane => Sys2Proof.Machine.execLoadExpiry lane s
  | .dischargeExpiry lane => Sys2Proof.Machine.execDischargeExpiry lane s
  | .tankReportExpiry => Sys2Proof.Machine.execTankReportExpiry s
  | .sample code => Sys2Proof.Machine.execSample code s
  | .clockAdvance => Sys2Proof.Machine.execClockAdvance s
  | .moveTimerExpiry sect => Sys2Proof.Machine.execMoveTimerExpiry sect s
  | .sectionInputChange sect levels => Sys2Proof.Machine.execSectionInputChange sect levels s
  | .powerFail => Sys2Proof.Machine.execPowerFail s
  | .powerRestored => Sys2Proof.Machine.execPowerRestored s
  | .resetAsserted => Sys2Proof.Machine.execResetAsserted s
  | .start strap rateStraps => Sys2Proof.Machine.execStart strap rateStraps s
  | .planLockKeyChange locked => Sys2Proof.Machine.execPlanLockKeyChange locked s
  | .timeBaseSecond => Sys2Proof.Machine.execTimeBaseSecond s
  | .breakEnd st => Sys2Proof.Machine.execBreakEnd st s
  | .supplyLoss cutOff => Sys2Proof.Machine.execSupplyLoss cutOff s

end Sys2Proof.Machine
end

