-- ==== Sys2Proof/Safety.lean ====
section
/-! DEFINITION. What a sound state of the controller is: the laws of the device that every step keeps,
each as a test that can be evaluated. Where a law speaks of retained contents it is asked of the retained
image too, since a warm start brings the image back. -/

namespace Sys2Proof.Machine

/-! Canonical stores -/

/-- The numbered stores stand in their canonical form, within their capacities (Table 9-3). -/
def State.tablesOk (s : State) : Bool :=
  s.lanes.wf Config.laneCount && s.zones.wf Config.zoneCount && s.ramps.wf Config.rampCount &&
    s.sections.wf Config.sectionCount && s.inputs.wf Config.sectionCount

/-- The retained image's numbered stores likewise. -/
def Image.tablesOk (i : Image) : Bool :=
  i.lanes.wf Config.laneCount && i.zones.wf Config.zoneCount && i.ramps.wf Config.rampCount &&
    i.sections.wf Config.sectionCount && i.admitting.wf Config.laneCount

/-- Both stores are canonical. -/
def State.storesOk (s : State) : Bool := s.tablesOk && s.store.image.tablesOk

/-! Links (R151, R153, R161, R162) -/

/-- A link within its bounds: mailbox and queue, one slot a kind with its merge count in range, and no
slot left holding while a place is free and the mailbox empty. -/
def Link.ok (l : Link) : Bool :=
  decide (l.mailbox.length ≤ Config.mailboxSize) && decide (l.queue.length ≤ Config.queueSize) &&
    decide (l.slots.map (·.kind)).Nodup &&
    l.slots.all (fun x => decide (1 ≤ x.merge) && decide (x.merge ≤ 255)) &&
    (l.slots.isEmpty || decide (l.queue.length = Config.queueSize) || !l.mailbox.isEmpty)

/-- Every link is within its bounds. -/
def State.linksOk (s : State) : Bool := allStations.all fun st => (s.links.get st).ok

/-! Retained store (R169) -/

/-- While the controller has supply, the image holds the retained contents as they stand, under a valid
integrity word. -/
def State.imageOk (s : State) : Bool :=
  !s.control.supplied || (decide (s.store.image = s.image) && s.store.intact)

/-! Deck sections (R137, R141, R145) -/

/-- A section's fields agree with its state: a position exactly in AT_POSITION and MOVE_PENDING, a target
in MOVING and in MOVE_PENDING without a held fault, a running timer in MOVING alone, and a cause wherever it
is in FAULT or holds a fault. -/
def Sect.ok (c : Sect) : Bool :=
  (!c.faultHeld || c.cause.isSome) &&
  match c.state with
  | .atPosition =>
    c.position.isSome && c.origin.isNone && c.target.isNone && !c.faultHeld && decide (c.timer = 0)
  | .movePending =>
    c.position.isSome && c.origin.isNone && (c.target.isSome != c.faultHeld) && decide (c.timer = 0)
  | .moving =>
    c.position.isNone && c.target.isSome && !c.faultHeld && decide (c.timer ≤ Config.moveSeconds)
  | .fault =>
    c.position.isNone && c.origin.isNone && c.target.isNone && !c.faultHeld && decide (c.timer = 0) &&
      c.cause.isSome

/-- A section keeps the position it left as its origin exactly while it moves (R137, R141). -/
def Sect.originOk (c : Sect) : Bool := decide (c.state = .moving) == c.origin.isSome

/-- Every section of a sealed profile is coherent, in the state and in the image. The image keeps no origin
(R169). -/
def State.sectionsOk (s : State) : Bool :=
  (!s.isSealed || s.sections.all fun c => c.2.ok && c.2.originOk) &&
    (!s.store.image.isSealed || s.store.image.sections.all fun c => c.2.ok && c.2.origin.isNone)

/-! Heel Monitor (R67, R68, R71, R72) -/

/-- The history and the three counts are within four, the qualified samples are among those of the
history, and outside ACTIVE neither qualified samples nor divergences are counted. -/
def Monitor.ok (m : Monitor) : Bool :=
  decide (m.history.length ≤ 4) && decide (m.rail ≤ 4) && decide (m.qualified ≤ 4) &&
    decide (m.divergence ≤ 4) && decide (m.qualified ≤ m.history.length) &&
    (decide (m.state = .active) || (decide (m.qualified = 0) && decide (m.divergence = 0)))

/-! Modes, clock, lists and the divergence count (R14, R17, R72, R131, R132, R136, R164) -/

/-- A plan clock that stands at its cold-start values. -/
def PlanClock.zero (c : PlanClock) : Bool :=
  decide (c.now = 0) && c.cutoff.isNone && !c.reached

/-- The mode agrees with the seal: PROFILE exactly while unsealed; outside RUN no reservation and no
waiting unit; once the cut-off is reached no waiting unit; while unsealed the clock stands at 0 without
cut-off, in the state and in the image, and no divergence is counted (R72). -/
def State.modeOk (s : State) : Bool :=
  (decide (s.control.work = .profile) == !s.isSealed) &&
    (decide (s.control.work = .run) || (s.movements.isEmpty && s.waiting.isEmpty)) &&
    (!s.clock.reached || s.waiting.isEmpty) &&
    (s.isSealed || s.clock.zero) && (s.store.image.isSealed || s.store.image.clock.zero) &&
    (s.isSealed || decide (s.monitor.divergence = 0))

/-! Capacities and ranges (R42, R60, R66, R80, R81, R93, R101, R103, R124, R127, R132, R155) -/

/-- The band is within the ranges BAND clamps to (R60). -/
def bandInRange (kp ks h : Int) : Bool :=
  decide (0 ≤ kp) && decide (kp ≤ 400000000) && decide (0 ≤ ks) && decide (ks ≤ 400000000) &&
    decide (0 ≤ h) && decide (h ≤ 50000000)

/-- The heel model is within the ranges HEEL_MODEL clamps to (R66). -/
def heelModelInRange (kh : Nat) (offset tolerance : Int) : Bool :=
  decide (kh ≤ 65535) && decide (-200 ≤ offset) && decide (offset ≤ 200) && decide (5 ≤ tolerance) &&
    decide (tolerance ≤ 500)

/-- Every lane's priority level and every ramp's mask is within 0 to 7 (R80, R81). -/
def levelsInRange (lanes : Table Lane) (ramps : Table Ramp) : Bool :=
  lanes.all (fun l => decide (l.2.level ≤ 7)) && ramps.all fun r => decide (r.2.mask ≤ 7)

/-- The lists are within their capacities and the counters and settings within their ranges; what is retained
is so in the image too. -/
def State.boundsOk (s : State) : Bool :=
  decide (s.register.length ≤ Config.registerSize) &&
    decide (s.store.image.register.length ≤ Config.registerSize) &&
    decide (s.movements.length ≤ Config.reservations) && decide (s.waiting.length ≤ Config.waitingSize) &&
    decide (1 ≤ s.seqNext) && decide (s.seqNext ≤ Config.maxTime) &&
    decide (60 ≤ s.timeout) && decide (s.timeout ≤ 900) &&
    decide (60 ≤ s.store.image.timeout) && decide (s.store.image.timeout ≤ 900) &&
    decide (s.clock.now ≤ Config.maxTime) && decide (s.store.image.clock.now ≤ Config.maxTime) &&
    s.movements.all (fun r => decide (r.seconds ≤ 900)) &&
    s.waiting.all (fun w => decide (w.retries ≤ 15)) &&
    levelsInRange s.lanes s.ramps && levelsInRange s.store.image.lanes s.store.image.ramps &&
    bandInRange s.account.kp s.account.ks s.account.h &&
    bandInRange s.store.image.kp s.store.image.ks s.store.image.h &&
    heelModelInRange s.monitor.kh s.monitor.offset s.monitor.tolerance &&
    heelModelInRange s.store.image.kh s.store.image.offset s.store.image.tolerance &&
    allStations.all fun st => decide (((s.stations.get st).quiet.getD 0) ≤ Config.quietLimit)

/-! Register and Waiting List (R40, R44, R124) -/

/-- No booking is held by two records or two waiting elements, and the waiting elements are exactly the
units whose records are WAITING. -/
def State.waitingOk (s : State) : Bool :=
  decide (s.register.map (·.booking)).Nodup && decide (s.store.image.register.map (·.booking)).Nodup &&
    decide (s.waiting.map (·.booking)).Nodup &&
    s.register.all (fun r =>
      decide (r.state = .waiting) == s.waiting.any fun w => decide (w.booking = r.booking)) &&
    s.waiting.all fun w => s.register.any fun r => decide (r.booking = w.booking)

/-! The plan and the account (R20, R23, R25, R26, R55, R56, R79, R101) -/

/-- The delta of loading an entry. -/
def Lane.deltaOf (l : Lane) (mass : Nat) : Int := mass * l.profile.arm

/-- The zone of a unit at `offset` of a lane. -/
def Lane.zoneOf (zones : Table Zone) (l : Lane) (offset len : Nat) : Option Nat :=
  zoneAt zones l.profile.deck (l.profile.centre offset len)

/-- What a reservation or check record says of the unit it concerns. -/
structure Claim where
  booking : Booking
  delta : Int
  zone : Option Nat
  offset : Nat
  deriving DecidableEq, Repr

def Entry.claim (zones : Table Zone) (l : Lane) (e : Entry) (sign : Int) : Claim where
  booking := e.booking
  delta := sign * l.deltaOf e.unit.mass
  zone := l.zoneOf zones e.offset e.unit.length
  offset := e.offset

def CheckRecord.claim (c : CheckRecord) : Claim where
  booking := c.booking
  delta := c.delta
  zone := c.zone
  offset := c.offset

def Reservation.claim (r : Reservation) : Claim where
  booking := r.booking
  delta := r.delta
  zone := r.zone
  offset := r.offset

/-- A lane's list and check record agree: every entry but the last is STOWED, a check record stands beside
STOWED entries only, and it says of its unit what the lane gives. -/
def Lane.shapeOk (zones : Table Zone) (l : Lane) : Bool :=
  l.entries.dropLast.all (fun e => decide (e.state = .stowed)) &&
    match l.check with
    | none => true
    | some c =>
      !l.inService &&
        match c.content with
        | .load u =>
          decide (c.delta = l.deltaOf u.mass) && decide (c.zone = l.zoneOf zones c.offset u.length)
        | .discharge =>
          match l.entries.getLast? with
          | some e => decide (c.claim = e.claim zones l (-1))
          | none => false

/-- A lane's last entry and the Movement Table agree: a RESERVED or LEAVING entry has one reservation, of
its kind, saying of its unit what the lane gives; no other lane has one. -/
def State.laneMoves (s : State) (n : Nat) (l : Lane) : Bool :=
  match l.entries.getLast?, s.movements.filter fun r => decide (r.lane = n) with
  | some e, [r] =>
    decide (r.mass = e.unit.mass) &&
      match e.state with
      | .reserved => decide (r.kind = .load) && decide (r.claim = e.claim s.zones l 1)
      | .leaving => decide (r.kind = .discharge) && decide (r.claim = e.claim s.zones l (-1))
      | .stowed => false
  | some e, [] => decide (e.state = .stowed)
  | none, [] => true
  | _, _ => false

/-- The entries whose masses count: STOWED and LEAVING (R23, R55). -/
def Lane.aboard (l : Lane) : List Entry := l.entries.filter fun e => decide (e.state ≠ .reserved)

/-- The deltas that are pending: those of the reservations, then those of the check records (R56). -/
def State.pendingDeltas (s : State) : List Int :=
  s.movements.map (·.delta) ++ s.lanes.filterMap fun p => p.2.check.map (·.delta)

/-- The mass a zone holds in a lane (R55). -/
def Lane.aboardIn (zones : Table Zone) (z : Nat) (l : Lane) : Nat :=
  ((l.aboard.filter fun e => decide (l.zoneOf zones e.offset e.unit.length = some z)).map
    fun e => e.unit.mass).sum

/-- The pending load mass of a zone (R56). -/
def State.pendingMass (s : State) (z : Nat) : Nat :=
  ((s.movements.filter fun r => decide (r.kind = .load) && decide (r.zone = some z)).map (·.mass)).sum +
    (s.lanes.map fun p => p.2.pendingIn z).sum

/-- Tc is the moment of the STOWED and LEAVING entries; the pending sums are those of the pending deltas
(R55, R56). -/
def State.momentsOk (s : State) : Bool :=
  decide (s.account.tc =
      (s.lanes.map fun p => (p.2.aboard.map fun e => p.2.deltaOf e.unit.mass).sum).sum) &&
    decide (s.account.pPlus = (s.pendingDeltas.map fun d => max d 0).sum) &&
    decide (s.account.pMinus = (s.pendingDeltas.map fun d => min d 0).sum)

/-- The masses of lanes and zones, the pool count and the ramp counts are those of the lists (R19, R23,
R55, R56, R79). -/
def State.massesOk (s : State) : Bool :=
  s.lanes.all (fun p => decide (p.2.mass = (p.2.aboard.map fun e => e.unit.mass).sum)) &&
    s.zones.all (fun z =>
      decide (z.2.confirmed = (s.lanes.map fun p => p.2.aboardIn s.zones z.1).sum) &&
        decide (z.2.pendingLoad = s.pendingMass z.1)) &&
    decide (s.poolInUse =
      (s.lanes.map fun p => p.2.entries.length + p.2.loadCheck?.toList.length).sum) &&
    s.ramps.all fun r => decide (r.2.count = (s.movements.filter fun m => decide (m.ramp = r.1)).length)

/-- The second law of R26: a lane on or beneath a section that is MOVING or in FAULT carries no pending
movement, neither a reservation, by which it would be in service, nor a check record. -/
def Lane.undisturbed (sections : Table Sect) (l : Lane) : Bool :=
  match l.profile.relation.section?.bind fun k => sections.get k with
  | some c => c.holds || (!l.inService && l.check.isNone)
  | none => true

/-- Lanes, reservations, check records and account agree, and no movement is pending where a section moves or
is in FAULT; while unsealed the lanes are bare. -/
def State.planOk (s : State) : Bool :=
  s.lanes.all (fun p => p.2.shapeOk s.zones && s.laneMoves p.1 p.2 && p.2.undisturbed s.sections) &&
    s.movements.all (fun r => (s.lanes.get r.lane).isSome) &&
    (s.isSealed || s.lanes.all fun p => !p.2.occupied) && s.momentsOk && s.massesOk &&
    s.store.image.lanes.all (fun p =>
      p.2.shapeOk s.store.image.zones && p.2.undisturbed s.store.image.sections) &&
    s.store.image.ramps.all (fun r => decide (r.2.count = 0)) &&
    (s.store.image.isSealed || s.store.image.lanes.all fun p => !p.2.occupied)

/-! Occupancy lists (R19, R20, R25) -/

/-- Each entry's offset is the end of the entries before it. -/
def offsetsOk (gap at_ : Nat) (es : List Entry) : Bool :=
  match es with
  | [] => true
  | e :: rest => decide (e.offset = at_) && offsetsOk gap (at_ + e.unit.length + gap) rest

/-- A lane's list is packed from the closed end, within its length and, with the unit of a LOAD check
record, within its capacity; a LOAD check record stands at its end. -/
def Lane.packed (gap : Nat) (l : Lane) : Bool :=
  offsetsOk gap 0 l.entries && decide (l.units.length ≤ Config.laneEntries) &&
    l.entries.all (fun e => decide (e.offset + e.unit.length ≤ l.profile.length)) &&
    match l.loadCheck? with
    | some c => decide (c.1.offset = endOf gap l.entries)
    | none => true

/-- Every lane is packed, in the state and in the image. -/
def State.listsOk (s : State) : Bool :=
  s.lanes.all (fun p => p.2.packed s.gap) &&
    s.store.image.lanes.all fun p => p.2.packed s.store.image.gap

/-! Bookings (R43, R44) -/

/-- The bookings of all entries and LOAD check records. -/
def heldBookings (lanes : Table Lane) : List Booking :=
  lanes.flatMap fun p => p.2.units.map (·.1)

/-- A record's booking stands in the lanes as its state says: RESERVED with a RESERVED entry, CHECK with a
LOAD check record, otherwise with nothing. -/
def UnitRecord.placed (lanes : Table Lane) (r : UnitRecord) : Bool :=
  let entry := lanes.any fun p =>
    p.2.entries.any fun e => decide (e.booking = r.booking) && decide (e.state = .reserved)
  let check := lanes.any fun p =>
    p.2.loadCheck?.any fun c => decide (c.1.booking = r.booking)
  match r.state with
  | .reserved => entry
  | .check => check
  | .announced => decide (r.booking ∉ heldBookings lanes)
  | .waiting => decide (r.booking ∉ heldBookings lanes)
  | .excluded => decide (r.booking ∉ heldBookings lanes)

/-- No booking is held twice in the lanes, every record is placed as its state says, and every RESERVED entry
and LOAD check record has its record. -/
def bookingsOk (lanes : Table Lane) (register : List UnitRecord) : Bool :=
  decide (heldBookings lanes).Nodup && register.all (·.placed lanes) &&
    lanes.all fun p =>
      p.2.entries.all (fun e =>
        (decide (e.state = .reserved)) == register.any fun r => decide (r.booking = e.booking)) &&
      p.2.loadCheck?.all fun c => register.any fun r => decide (r.booking = c.1.booking)

/-- The booking law, in the state and in the image. -/
def State.bookingsOk (s : State) : Bool :=
  Machine.bookingsOk s.lanes s.register && Machine.bookingsOk s.store.image.lanes s.store.image.register

/-- Everything above at once. -/
def State.sound (s : State) : Bool :=
  s.storesOk && s.linksOk && s.imageOk && s.sectionsOk && s.monitor.ok && s.modeOk && s.boundsOk &&
    s.waitingOk && s.planOk && s.listsOk && s.bookingsOk

/-! Records whose fields are in range -/

/-- `k` is the number of the first condition of the list that is broken. -/
def FirstBroken (broken : List (Nat × Prop)) (k : Nat) : Prop :=
  match broken with
  | [] => False
  | (n, b) :: rest => (b ∧ n = k) ∨ (¬ b ∧ FirstBroken rest k)

/-- What a DEF_LANE payload may break, in the order of R4: the ranges of Table 1-2 by field number, then the
lane beyond the ship at field 3 (R2). Field order and widths are notes/assumptions/9.md's, the codes of fields
11 and 12 notes/assumptions/12.md's. -/
def laneBreaches (p : List Byte) : List (Nat × Prop) :=
  let v (at_ len : Nat) : Nat := natOf (field p at_ len)
  let arm := intOf (field p 8 2)
  [ (1, v 1 1 < 1 ∨ 4 < v 1 1),
    (2, v 2 1 < 1 ∨ 12 < v 2 1),
    (3, v 3 2 < 60 ∨ 2400 < v 3 2),
    (4, 2400 < v 5 2),
    (5, 1 < v 7 1),
    (6, arm < -1600 ∨ 1600 < arm),
    (7, v 10 2 < 150 ∨ 700 < v 10 2),
    (8, v 12 2 < 10 ∨ 9000 < v 12 2),
    (9, 8 < v 14 1),
    (10, v 15 1 ≠ 1 ∧ v 15 1 ≠ 2),
    (11, v 16 1 < 1 ∨ 15 < v 16 1),
    (12, ¬ (v 17 1 = 1 ∧ v 18 1 = 0 ∨ (v 17 1 = 2 ∨ v 17 1 = 3) ∧ 1 ≤ v 18 1 ∧ v 18 1 ≤ 6)),
    (3, v 7 1 = 0 ∧ 2400 < v 5 2 + v 3 2 ∨ v 7 1 = 1 ∧ v 5 2 < v 3 2) ]

/-- What a DEF_ZONE payload may break, in the order of R6: the ranges of Table 1-3, then aft below fore at
field 3. -/
def zoneBreaches (p : List Byte) : List (Nat × Prop) :=
  let v (at_ len : Nat) : Nat := natOf (field p at_ len)
  [ (1, v 1 1 < 1 ∨ 4 < v 1 1),
    (2, 2399 < v 2 2),
    (3, v 4 2 < 1 ∨ 2400 < v 4 2),
    (4, v 6 2 < 1 ∨ 65000 < v 6 2),
    (3, v 4 2 ≤ v 2 2) ]

/-- What a DEF_SECTION payload may break, in the order of R8: the ranges of Table 1-5, then the geometry, each
clearance against the one before it. -/
def sectionBreaches (p : List Byte) : List (Nat × Prop) :=
  let v (at_ : Nat) : Nat := natOf (field p at_ 2)
  [ (1, v 1 < 150 ∨ 700 < v 1),
    (2, v 3 < 150 ∨ 700 < v 3),
    (3, v 5 < 150 ∨ 700 < v 5),
    (4, v 7 < 150 ∨ 700 < v 7),
    (5, v 9 < 150 ∨ 700 < v 9),
    (6, v 11 < 150 ∨ 700 < v 11),
    (2, v 3 < v 1),
    (3, v 5 < v 3),
    (5, v 7 < v 9),
    (6, v 9 < v 11) ]

/-- What a DEF_SHIP payload may break: the ranges of Table 1-6 (R9). -/
def shipBreaches (p : List Byte) : List (Nat × Prop) :=
  [(1, 10 < natOf (field p 0 1)), (2, 300 < natOf (field p 1 2))]

/-- The ranges of Table 1-2, a non-empty set of kinds, a section from 1 to 6 (R4). -/
def LaneProfile.rangesOk (l : LaneProfile) : Bool :=
  within 1 4 l.deck && within 1 12 l.row && within 60 2400 l.length && within 0 2400 l.closedEnd &&
    decide (-1600 ≤ l.arm) && decide (l.arm ≤ 1600) && within 150 700 l.baseClearance &&
    within 10 9000 l.massCap && within 0 8 l.sockets &&
    (l.kinds.trailer || l.kinds.rigid || l.kinds.car || l.kinds.cassette) &&
    (match l.relation.section? with | some n => sectionNumberOk n | none => true)

/-- The ranges hold and the lane lies within the ship (R2, R4). -/
def LaneProfile.inRange (l : LaneProfile) : Bool := l.rangesOk && l.fits

/-- The ranges of Table 1-3 with aft below fore, and no mass yet (R6). -/
def Zone.inRange (z : Zone) : Bool :=
  within 1 4 z.deck && within 0 2399 z.aft && within 1 2400 z.fore && within 1 65000 z.cap &&
    decide (z.aft < z.fore) && decide (z.confirmed = 0) && decide (z.pendingLoad = 0)

/-- A reach list of 1 to 24 lanes without repeats (R7). -/
def reachOk (reach : List Nat) : Bool :=
  within 1 24 reach.length && reach.all laneNumberOk && decide reach.Nodup

/-- The ranges of Table 1-5 and their geometry (R8). -/
def Clearances.inRange (c : Clearances) : Bool :=
  within 150 700 c.aboveRaised && within 150 700 c.aboveMid && within 150 700 c.aboveLowered &&
    within 150 700 c.beneathRaised && within 150 700 c.beneathMid && within 150 700 c.beneathLowered &&
    decide (c.aboveRaised ≤ c.aboveMid) && decide (c.aboveMid ≤ c.aboveLowered) &&
    decide (c.beneathMid ≤ c.beneathRaised) && decide (c.beneathLowered ≤ c.beneathMid)

/-- The ranges of Table 3-1 (R46). -/
def UnitFields.inRange (u : UnitFields) : Bool :=
  within 30 200 u.length && (match u.height with | some h => within 100 500 h | none => true) &&
    within 1 700 u.mass && within 1 15 u.port

/-! What a command leaves as it was -/

/-- Everything outside the links, the plan and the image is as it was. -/
structure State.KeepsRest (s t : State) : Prop where
  stations : t.stations = s.stations
  isSealed : t.isSealed = s.isSealed
  sections : t.sections = s.sections
  gap : t.gap = s.gap
  segregation : t.segregation = s.segregation
  monitor : t.monitor = s.monitor
  timeout : t.timeout = s.timeout
  clock : t.clock = s.clock
  inputs : t.inputs = s.inputs
  control : t.control = s.control
  pending : t.pending = s.pending

/-- A lane without its revision. -/
def Lane.unrevised (l : Lane) : Lane := { l with revision := 0 }

/-- The lanes without their revisions. -/
def State.unrevisedLanes (s : State) : Table Lane := s.lanes.mapAll Lane.unrevised

/-- Register, Lane Map, zones, ramps, pool, account, sequence counter, Movement Table and Waiting List are
as they were, but for the revisions of lanes and account (R34, R75). -/
structure State.SamePlan (s t : State) : Prop where
  register : t.register = s.register
  lanes : t.unrevisedLanes = s.unrevisedLanes
  zones : t.zones = s.zones
  ramps : t.ramps = s.ramps
  poolInUse : t.poolInUse = s.poolInUse
  account : { t.account with revision := 0 } = { s.account with revision := 0 }
  seqNext : t.seqNext = s.seqNext
  movements : t.movements = s.movements
  waiting : t.waiting = s.waiting

/-! What a re-examination pass may add (R125 to R128) -/

/-- A lane that a pass may have admitted a unit to: RESERVED entries have joined at its open end. -/
structure Lane.GrownInto (a b : Lane) : Prop where
  same : { b with entries := a.entries, revision := a.revision } = a
  entries : ∃ more : List Entry, b.entries = a.entries ++ more ∧ ∀ e ∈ more, e.state = .reserved

/-- The lanes after a pass: the same numbers, each lane grown at most. -/
def lanesGrown (a b : Table Lane) : Prop := List.Forall₂ (fun p q => p.1 = q.1 ∧ p.2.GrownInto q.2) a b

/-- The zone but for its pending load mass. -/
def Zone.unloaded (z : Zone) : Zone := { z with pendingLoad := 0 }

/-- The ramp but for its reservation count. -/
def Ramp.uncounted (r : Ramp) : Ramp := { r with count := 0 }

/-- The record but for its state. -/
def UnitRecord.unstated (r : UnitRecord) : UnitRecord := { r with state := .announced }

/-- `t` is what a re-examination pass leaves of `s`. The pass admits and excludes waiting units and does
nothing else: lanes gain RESERVED entries, the Movement Table gains reservations behind those it holds,
waiting units leave the list; Tc, the band, the confirmed masses and everything outside the plan stay.
Where no pass can run, nothing is added. -/
structure State.PassedInto (s t : State) : Prop where
  rest : s.KeepsRest t
  lanes : lanesGrown s.lanes t.lanes
  zones : t.zones.mapAll Zone.unloaded = s.zones.mapAll Zone.unloaded
  ramps : t.ramps.mapAll Ramp.uncounted = s.ramps.mapAll Ramp.uncounted
  account : { t.account with pPlus := 0, pMinus := 0, revision := 0 } =
    { s.account with pPlus := 0, pMinus := 0, revision := 0 }
  movements : s.movements <+: t.movements
  waiting : (t.waiting.map (·.booking)).Sublist (s.waiting.map (·.booking))
  register : t.register.map UnitRecord.unstated = s.register.map UnitRecord.unstated
  still : s.passAllowed = false ∨ s.waiting = [] → s.SamePlan t

/-! What an event leaves on the links and in the image -/

/-- A link that has had frames joined behind its queue and is otherwise as it was, its slots apart. -/
structure Link.GrownTo (a b : Link) : Prop where
  queue : a.queue <+: b.queue
  mailbox : b.mailbox = a.mailbox
  ready : b.ready = a.ready
  readyInput : b.readyInput = a.readyInput
  receiver : b.receiver = a.receiver
  line : b.line = a.line

/-- Notices alone have joined a link: frames of a notice's kind with tag 0 stand behind what stood in the
queue, and whatever a slot held is held in the slot of its kind still or has joined the queue (R161, R162,
R170). -/
def Link.AddsNotices (a b : Link) : Prop :=
  ∃ more : List Frame, b.queue = a.queue ++ more ∧ (∀ g ∈ more, 0xC0 ≤ g.kind.toNat ∧ g.tag = 0) ∧
    ∀ x ∈ a.slots, (∃ y ∈ b.slots, y.kind = x.kind) ∨ ∃ g ∈ more, g.kind.toNat = noticeCode x.kind

/-- The links of `t` continue those of `s` (R153, R159), and the image holds the retained contents as `t`
has them (R169). -/
structure State.LeadsTo (s t : State) : Prop where
  links : ∀ o, (s.links.get o).GrownTo (t.links.get o)
  image : t.store = { image := t.image, intact := true }

/-- The request `f` of the given code and payload stands at the front of the link and can be taken
(R152). -/
structure State.Offers (s : State) (st : Station) (code : Nat) (payload : List Byte) (f : Frame) :
    Prop where
  next : s.nextRequest st = some f
  kind : f.kind.toNat = code
  payload : f.payload = payload

/-- The request has left the mailbox, its reply stands in the queue, and behind it the notices `ns` on the
links they are addressed to (R152, R159). -/
def State.answered (s : State) (st : Station) (f : Frame) (r : Reply) (ns : List Notice) : State :=
  ((s.popMailbox st).reply st (replyFrame f r)).sendAll ns

/-- The command takes the request `f` of the link, answers it with `r`, sends the notices `ns` first, and
the state it leaves has the property `P`. -/
def Answers (c : Instr) (s : State) (st : Station) (f : Frame) (r : Reply) (ns : List Notice)
    (P : State → Prop) : Prop :=
  ∃ t, exec c s = .next t ∧ (s.answered st f r ns).LeadsTo t ∧ P t

/-- The plan after an event whose own changes make `b` of `s`, with the notices of its pass: the revisions
of the changed lanes rise (R34), then the pass runs where the event is a trigger (R125). -/
def afterPass (s b : State) (named : Bool) : State × List Notice :=
  if triggered s b named then (b.reviseLanes s).runPass else (b.reviseLanes s, [])

/-- The notices of such an event in their order: its own notices `head`, the LANE_STATE notices, the notices
`tail` of the sections, the notices of the pass (R29, R114, R128). -/
def eventNotices (s b : State) (head tail : List Notice) (named : Bool) : List Notice :=
  head ++ watchedReports s b (b.reviseLanes s) ++ tail ++ (afterPass s b named).2

/-- The state after such an event: its notices stand on the links behind what stands there in `q`, held
slots are released, the account revision has risen where the account changed, and the image is written
(R75, R159, R162, R169; for the releases notes/assumptions/34.md). -/
def eventEnd (s b q : State) (head tail : List Notice) (named : Bool) : State :=
  State.commit
    { (afterPass s b named).1.reviseAccount s with
      links := (q.sendAll (eventNotices s b head tail named)).releaseAll.links }

/-- The command takes the request `f` of the link and answers it with `r`; its own changes make `b` of the
state, and the event ends so, a trigger by its own rule where `named`. -/
def AnswersWith (c : Instr) (s : State) (st : Station) (f : Frame) (r : Reply) (head tail : List Notice)
    (b : State) (named : Bool) : Prop :=
  exec c s = .next (eventEnd s b ((s.popMailbox st).reply st (replyFrame f r)) head tail named)

/-- The same for an event that is no request and leaves the links to its notices. -/
def HappensWith (c : Instr) (s : State) (head tail : List Notice) (b : State) : Prop :=
  exec c s = .next (eventEnd s b s head tail false)

/-- The same for an event whose own changes reach the links. -/
def EndsFrom (c : Instr) (s b : State) (head tail : List Notice) : Prop :=
  exec c s = .next (eventEnd s b b head tail false)

/-- The end of a request that changes no lane and no account: the reply is placed, the notices behind it, held
slots are released, the image is written (R152, R159, R162, R169; for the releases notes/assumptions/34.md).
-/
def State.concludedWith (s : State) (st : Station) (f : Frame) (ns : List Notice) : State :=
  ((s.reply st f).sendAll ns).releaseAll.commit

/-- The same where no notice is sent. -/
def State.concluded (s : State) (st : Station) (f : Frame) : State := s.concludedWith st f []

/-- The end of an event that is no request and changes no lane and no account: its notices are placed,
held slots are released, the image is written (R159, R162, R169; for the releases notes/assumptions/34.md). -/
def State.endedWith (s : State) (ns : List Notice) : State := (s.sendAll ns).releaseAll.commit

/-- The monitor after a valid sample and before the comparison (R67, R68). -/
def sampledMonitor (m : Monitor) (code : BitVec 12) : Monitor :=
  { m with
    rail := 0
    history := m.history.drop (m.history.length - 3) ++ [(code.toNat : Int) - 2048 + m.offset]
    qualified := if ({ m with rail := 0 } : Monitor).state = .active then min 4 (m.qualified + 1)
      else m.qualified }

/-- Lane `l` takes the unit `u` through a ramp with the given mask: it meets every condition of Table 5-3
(R86 to R91). -/
structure State.Takes (s : State) (mask : Nat) (u : UnitBody) (l : Lane) : Prop where
  level : l.level ≤ mask
  sect : s.laneSectionPending l = false
  shown : s.displayed l = .openLane ∨ s.displayed l = .filling
  idle : ∀ e ∈ l.entries, e.state = .stowed
  room : l.entries.length < 24
  kind : l.profile.kinds.has u.kind = true
  length : s.laneEnd l + u.length ≤ l.profile.length
  height : u.height ≤ l.clearance
  order : ∀ e, l.entries.getLast? = some e → u.port ≤ e.unit.port
  reefer : u.reefer = true → (l.entries.filter fun e => e.unit.reefer).length < l.profile.sockets
  dg : ∀ g, u.dg = some g → l.profile.dgPermitted = true ∧
    ∀ m k, s.lanes.get m = some k → k.profile.deck = l.profile.deck →
      k.profile.row ≤ l.profile.row + 1 → l.profile.row ≤ k.profile.row + 1 →
      ∀ v ∈ k.standing, ∀ g', v.2.dg = some g' → g' ≠ g →
        (s.segregation : Int) < (k.profile.span v.1 v.2.length).distance
          (l.profile.span (s.laneEnd l) u.length)
  laneMass : l.mass + u.mass ≤ l.profile.massCap
  zoneMass : ∀ z zone, s.slotZone l.profile (s.laneEnd l) u.length = some z → s.zones.get z = some zone →
    zone.confirmed + zone.pendingLoad + u.mass ≤ zone.cap
  heelUpper : 0 < (u.mass : Int) * l.profile.arm →
    s.account.tc + s.account.pPlus + u.mass * l.profile.arm ≤ s.upperLimit
  heelLower : (u.mass : Int) * l.profile.arm < 0 →
    s.lowerLimit ≤ s.account.tc + s.account.pMinus + u.mass * l.profile.arm

/-- A section that comes into FAULT (R145). -/
def Sect.faulted (c : Sect) (cause : FaultCause) : Sect :=
  { c with
    position := none, origin := none, target := none, state := .fault, faultHeld := false,
    cause := some cause, timer := 0 }

/-- A section that holds a fault while movements of its lanes are pending (R145). -/
def Sect.holding (c : Sect) (cause : FaultCause) : Sect :=
  { c with state := .movePending, target := none, faultHeld := true, cause := some cause }

/-- A section at the resumption from POWER_DOWN (R148): one that holds a position, without a held fault, and
whose inputs do not show it, takes the sensor fault of R145. -/
def State.resumedSection (s : State) (n : Nat) (c : Sect) : Sect :=
  let i := s.sectionInputs n
  let cause : FaultCause :=
    if inputCount i = 0 then .inputLost else if inputCount i = 1 then .inputChanged else .multipleInputs
  if c.state = .moving ∨ c.state = .fault ∨ c.faultHeld = true ∨
      ((shownPosition i).isSome ∧ shownPosition i = c.position) then c
  else if s.pendingLanes n = [] then c.faulted cause else c.holding cause

/-- A section after a warm start (R149). -/
def State.warmedSection (s : State) (n : Nat) (c : Sect) : Sect :=
  let i := s.sectionInputs n
  let cause : FaultCause := if c.faultHeld then c.cause.getD .start else .start
  if c.state = .moving then c.faulted .start
  else if c.state = .fault then c
  else if c.faultHeld = false ∧ (shownPosition i).isSome ∧ shownPosition i = c.position then
    { c with state := .atPosition, target := none }
  else if s.pendingLanes n = [] then c.faulted cause else c.holding cause

/-- What a refusal of MOVE (code 13 hex) or CANCEL_MOVE (14 hex) ahead of check 4 carries of the fitted
section that the first payload byte names (R140, R143; for a payload of no form notes/assumptions/31.md). -/
def State.sectionShown (s : State) (code : Nat) (p : List Byte) : List Byte :=
  match s.fittedSection (natOf (field p 0 1)) with
  | some c => if code = 0x13 then encSect c else if code = 0x14 then encSectBrief c else []
  | none => []

/-- Which stations may send which request, by its code (Table 9-1). -/
def authorised (code : Nat) (st : Station) : Bool :=
  if code ≤ 0x15 then decide (st = .loading)
  else if code ≤ 0x23 then decide (st = .yard)
  else if code ≤ 0x36 then isRampStation st
  else if code ≤ 0x42 then decide (st ≠ .yard)
  else true

/-- In which modes a request is taken, by its code: the DEF_ requests and SEAL in PROFILE (R3, R10, R15),
ARRIVE and UNLASH in RUN (R83, R96), the requests on the running plan in RUN and RECOVERY, the others in
every mode in which frames are taken. -/
def takenIn (code : Nat) (m : Mode) : Bool :=
  if code ≤ 0x06 then decide (m = .profile)
  else if code = 0x30 ∨ code = 0x34 then decide (m = .run)
  else if (0x0D ≤ code ∧ code ≤ 0x0F) ∨ (0x11 ≤ code ∧ code ≤ 0x15) ∨ code = 0x22 ∨ code = 0x23 ∨
      (0x31 ≤ code ∧ code ≤ 0x42) ∨ code = 0x50 then decide (m ≠ .profile)
  else true

/-- Whether a payload has the length of a form of its request, by its code (R152, R172): where a list is
carried, its count agrees with its elements. -/
def lengthFits (code : Nat) (p : List Byte) : Bool :=
  if code = 0x01 then decide (p.length = 1 ∨ p.length = 19)
  else if code = 0x02 then decide (p.length = 1 ∨ p.length = 8)
  else if code = 0x03 then decide (p.length = 1 ∨ 2 ≤ p.length ∧ natOf (field p 1 1) = p.length - 2)
  else if code = 0x04 then decide (p.length = 1 ∨ p.length = 13)
  else if code = 0x05 then decide (p.length = 0 ∨ p.length = 3)
  else if code = 0x06 ∨ code = 0x07 ∨ code = 0x0B ∨ code = 0x0F ∨ code = 0x54 then decide (p.length = 0)
  else if code = 0x08 then decide (p.length = 12)
  else if code = 0x09 then decide (p.length = 6)
  else if code = 0x0A ∨ code = 0x0D ∨ code = 0x0E then decide (p.length = 4)
  else if code = 0x0C ∨ code = 0x13 ∨ code = 0x22 ∨ code = 0x23 ∨ code = 0x50 then decide (p.length = 2)
  else if code = 0x20 then decide (p.length = 20)
  else if code = 0x21 ∨ code = 0x33 ∨ code = 0x34 ∨ code = 0x51 then decide (p.length = 10)
  else if code = 0x30 then decide (p.length = 10 ∨ p.length = 20)
  else if code = 0x31 ∨ code = 0x32 then decide (p.length = 0 ∨ p.length = 11)
  else if code = 0x35 ∨ code = 0x36 then decide (p.length = 0 ∨ p.length = 10)
  else if code = 0x55 then decide (1 ≤ p.length ∧ natOf (field p 0 1) = p.length - 1)
  else decide (p.length = 1)

/-- The command takes the request `f` of the link, answers it with `r`, and does nothing else. -/
def OnlyAnswers (c : Instr) (s : State) (st : Station) (f : Frame) (r : Reply) : Prop :=
  exec c s = .next ((s.popMailbox st).concluded st (replyFrame f r))

/-- The request code of a command and the link it takes it from; the events name none (Table 12-2). -/
def requestOf : Instr → Option (Nat × Station)
  | .defLane st => some (0x01, st)
  | .defZone st => some (0x02, st)
  | .defRamp st => some (0x03, st)
  | .defSection st => some (0x04, st)
  | .defShip st => some (0x05, st)
  | .sealPlan st => some (0x06, st)
  | .clearPlan st => some (0x07, st)
  | .band st => some (0x08, st)
  | .heelModel st => some (0x09, st)
  | .tanks st => some (0x0A, st)
  | .releaseStop st => some (0x0B, st)
  | .timeout st => some (0x0C, st)
  | .cutoff st => some (0x0D, st)
  | .clock st => some (0x0E, st)
  | .resume st => some (0x0F, st)
  | .linkReset st => some (0x10, st)
  | .suspendRamp st => some (0x11, st)
  | .resumeRamp st => some (0x12, st)
  | .move st => some (0x13, st)
  | .cancelMove st => some (0x14, st)
  | .clearFault st => some (0x15, st)
  | .announce st => some (0x20, st)
  | .withdraw st => some (0x21, st)
  | .setPriority st => some (0x22, st)
  | .setMask st => some (0x23, st)
  | .arrive st => some (0x30, st)
  | .lashed st => some (0x31, st)
  | .backout st => some (0x32, st)
  | .sendBack st => some (0x33, st)
  | .unlash st => some (0x34, st)
  | .offloaded st => some (0x35, st)
  | .keep st => some (0x36, st)
  | .closeLane st => some (0x40, st)
  | .openLane st => some (0x41, st)
  | .verify st => some (0x42, st)
  | .readLane st => some (0x50, st)
  | .readUnit st => some (0x51, st)
  | .readAccount st => some (0x52, st)
  | .readState st => some (0x53, st)
  | .ident st => some (0x54, st)
  | .subscribe st => some (0x55, st)
  | .unknownMessageKind _ => none
  | .frameReceived _ _ => none
  | .interbyteTimeout _ => none
  | .frameSent _ => none
  | .lineBreak _ => none
  | .lineReadyChange _ _ => none
  | .quietLimit _ => none
  | .loadExpiry _ => none
  | .dischargeExpiry _ => none
  | .tankReportExpiry => none
  | .sample _ => none
  | .clockAdvance => none
  | .moveTimerExpiry _ => none
  | .sectionInputChange _ _ => none
  | .powerFail => none
  | .powerRestored => none
  | .resetAsserted => none
  | .start _ _ => none
  | .planLockKeyChange _ => none
  | .timeBaseSecond => none
  | .breakEnd _ => none
  | .supplyLoss _ => none

end Sys2Proof.Machine
end

