-- ==== Sys2Proof/Certificates/Slice0/Obligations.lean ====
section
/-! DEFINITION. The statements for the provers, each a proposition over the model. Where a statement asks
for `tablesOk`, `storesOk`, `modeOk`, `monitor.ok` or `sound`, it asks for an invariant that a statement of
its own says every step keeps. Where a statement names the end of an event, by `eventEnd`, `concludedWith` or `endedWith`,
the notices are placed and the held slots released as NoticesArePlacedAndReleased has it: behind each
placement and at the event's end (notes/assumptions/21.md, 34.md). -/

section
open Sys2Proof Sys2Proof.Machine

/-! The step -/

/-- A step is the command at the front of the queue on the state with the rest waiting; an empty queue
idles (the model's choice, notes/assumptions/4.md). -/
def Obligations.StepTakesTheFrontCommand : Prop :=
  (∀ (s : State) (c : Instr) (rest : List Instr), s.pending = c :: rest →
      step s = exec c { s with pending := rest }) ∧
    ∀ s : State, s.pending = [] → step s = .next s

/-- Every command with operands the module has answers a next state and leaves the queue alone; a section
input of no section is the one fault (the model's stop, spec/00 0.1.2). -/
def Obligations.WellFormedCommandsAnswer : Prop :=
  (∀ (c : Instr) (s : State), c.wf = true → ∃ t, exec c s = .next t ∧ t.pending = s.pending) ∧
    ∀ (n : Nat) (levels : Inputs) (s : State), sectionNumberOk n = false →
      exec (.sectionInputChange n levels) s = .fault (.noSuchTerminal n)

/-- The reset state is what a start with strap COLD makes of the emptied controller (R165), and it is
sound (notes/assumptions/1.md, 2.md for the levels of the pins). -/
def Obligations.ResetIsTheColdStart : Prop :=
  exec (.start .cold 0) State.blank = .next State.reset ∧ State.reset.sound = true

/-! Checks that open every request -/

/-- R156, with the place R31 gives the reach. What the refusal carries for MOVE and CANCEL_MOVE is R140's and
R143's, for a payload of no form the model's choice (notes/assumptions/31.md). -/
def Obligations.AuthorityIsCheckedFirst : Prop :=
  (∀ (c : Instr) (code : Nat) (st : Station) (s : State) (p : List Byte) (f : Frame),
      requestOf c = some (code, st) → s.Offers st code p f → s.tablesOk = true →
      authorised code st = false →
      OnlyAnswers c s st f (.refuse .authority (s.sectionShown code p))) ∧
    ∀ (c : Instr) (code : Nat) (st : Station) (s : State) (n : Nat) (f : Frame),
      requestOf c = some (code, st) → code = 0x40 ∨ code = 0x41 ∨ code = 0x42 →
      s.Offers st code (u8 n) f → s.tablesOk = true → s.mode ≠ .profile → laneNumberOk n = true →
      isRampStation st = true → n ∉ s.reachOf st → OnlyAnswers c s st f (.refuse .authority [])

/-- A request that the mode does not admit is refused MODE once its authority has passed (R3, R10, R35, R80
to R83, R96, R107, R129, R133, R134, R140, R167). What the refusal carries for MOVE and CANCEL_MOVE is
R140's and R143's, for a payload of no form the model's choice (notes/assumptions/31.md). -/
def Obligations.ModeIsCheckedNext : Prop :=
  ∀ (c : Instr) (code : Nat) (st : Station) (s : State) (p : List Byte) (f : Frame),
    requestOf c = some (code, st) → s.Offers st code p f → s.tablesOk = true →
    authorised code st = true → takenIn code s.mode = false →
    OnlyAnswers c s st f (.refuse .mode (s.sectionShown code p))

/-- R152: a kind that names no request is refused FIELD naming field 0 and carrying the kind, and a payload
whose length fits no form of its request is refused FIELD naming field 0. That such a refusal of MOVE and
CANCEL_MOVE carries the section its first byte names is the model's choice (notes/assumptions/31.md). So is
the place of the refusal for a request whose rule has no field check to give it one: SEAL, CLEAR_PLAN and
RESUME, where it stands right behind MODE or AUTHORITY, RELEASE_STOP, where it stands ahead of the ACK for a
clear stop and of STILL_DIVERGENT, and the requests whose values are clamped or free, CUTOFF, CLOCK, BAND,
HEEL_MODEL, TANKS, TIMEOUT and IDENT (notes/assumptions/33.md). -/
def Obligations.FormIsChecked : Prop :=
  (∀ (st : Station) (s : State) (f : Frame), s.nextRequest st = some f → s.tablesOk = true →
      isRequestKind f.kind.toNat = false →
      OnlyAnswers (.unknownMessageKind st) s st f (.refuseField 0 0 [f.kind])) ∧
    ∀ (c : Instr) (code : Nat) (st : Station) (s : State) (p : List Byte) (f : Frame),
      requestOf c = some (code, st) → s.Offers st code p f → s.tablesOk = true →
      authorised code st = true → takenIn code s.mode = true → lengthFits code p = false →
      (code = 0x30 ∨ code = 0x34 →
        ∃ row, (rampOf st).bind s.fittedRamp = some row ∧ row.suspended = false) →
      (code = 0x30 → s.clock.reached = false) → (code = 0x34 → s.monitor.stop = false) →
      OnlyAnswers c s st f (.refuseField 0 0 (s.sectionShown code p))

/-- R15: an undefined lane, a ramp that is not fitted and an undefined section are refused UNKNOWN; ARRIVE
and UNLASH through a ramp that is not fitted are refused REACH. Ahead of that stand the field checks: a lane,
ramp, page, level or mask out of range is refused FIELD naming its place in the payload (R31, R35, R80 to R82,
R118, R152); a section number out of range stands in SectionsMoveWaitAndCancel and FaultsAreRaisedAndCleared,
the pages of the other reads in ReadsReport. -/
def Obligations.UndefinedNumbersAreRefused : Prop :=
  (∀ (c : Instr) (code : Nat) (st : Station) (s : State) (n : Nat) (f : Frame),
      requestOf c = some (code, st) → code = 0x40 ∨ code = 0x41 ∨ code = 0x42 →
      s.Offers st code (u8 n) f → s.tablesOk = true → s.mode ≠ .profile → laneNumberOk n = true →
      st = .loading ∨ (isRampStation st = true ∧ n ∈ s.reachOf st) → s.lanes.get n = none →
      OnlyAnswers c s st f (.refuse .unknown [])) ∧
    (∀ (s : State) (n level : Nat) (f : Frame), s.Offers .yard 0x22 (u8 n ++ u8 level) f →
      s.tablesOk = true → s.mode ≠ .profile → laneNumberOk n = true → level ≤ 7 →
      s.lanes.get n = none → OnlyAnswers (.setPriority .yard) s .yard f (.refuse .unknown [])) ∧
    (∀ (st : Station) (s : State) (n page : Nat) (f : Frame), s.Offers st 0x50 (u8 n ++ u8 page) f →
      s.tablesOk = true → s.mode ≠ .profile → laneNumberOk n = true → page ≤ 6 →
      s.lanes.get n = none → OnlyAnswers (.readLane st) s st f (.refuse .unknown [])) ∧
    (∀ (s : State) (r mask : Nat) (f : Frame), s.Offers .yard 0x23 (u8 r ++ u8 mask) f →
      s.tablesOk = true → s.mode ≠ .profile → rampNumberOk r = true → mask ≤ 7 →
      s.fittedRamp r = none → OnlyAnswers (.setMask .yard) s .yard f (.refuse .unknown [])) ∧
    (∀ (c : Instr) (code : Nat) (s : State) (r : Nat) (f : Frame),
      requestOf c = some (code, .loading) → code = 0x11 ∨ code = 0x12 →
      s.Offers .loading code (u8 r) f → s.tablesOk = true → s.mode ≠ .profile →
      rampNumberOk r = true → s.fittedRamp r = none →
      OnlyAnswers c s .loading f (.refuse .unknown [])) ∧
    (∀ (c : Instr) (code : Nat) (s : State) (n : Nat) (f : Frame),
      requestOf c = some (code, .loading) → code = 0x14 ∨ code = 0x15 →
      s.Offers .loading code (u8 n) f → s.tablesOk = true → s.mode ≠ .profile →
      sectionNumberOk n = true → s.fittedSection n = none →
      OnlyAnswers c s .loading f (.refuse .unknown [])) ∧
    (∀ (s : State) (n : Nat) (p : Position) (f : Frame),
      s.Offers .loading 0x13 (u8 n ++ u8 (positionCode (some p))) f → s.tablesOk = true →
      s.mode ≠ .profile → sectionNumberOk n = true → s.fittedSection n = none →
      OnlyAnswers (.move .loading) s .loading f (.refuse .unknown [])) ∧
    (∀ (c : Instr) (code : Nat) (st : Station) (ramp : Nat) (s : State) (p : List Byte) (f : Frame),
      requestOf c = some (code, st) → code = 0x30 ∨ code = 0x34 → s.Offers st code p f →
      s.tablesOk = true → s.mode = .run → rampOf st = some ramp → s.fittedRamp ramp = none →
      OnlyAnswers c s st f (.refuse .reach [])) ∧
    ∀ s : State, s.tablesOk = true → s.mode ≠ .profile →
      (∀ (c : Instr) (code : Nat) (st : Station) (n : Nat) (f : Frame),
        requestOf c = some (code, st) → code = 0x40 ∨ code = 0x41 ∨ code = 0x42 → st ≠ .yard →
        s.Offers st code (u8 n) f → n < 256 → laneNumberOk n = false →
        OnlyAnswers c s st f (.refuseField 1 0 [])) ∧
      (∀ (n level : Nat) (f : Frame), s.Offers .yard 0x22 (u8 n ++ u8 level) f → n < 256 →
        level < 256 →
        (laneNumberOk n = false → OnlyAnswers (.setPriority .yard) s .yard f (.refuseField 1 0 [])) ∧
        (laneNumberOk n = true → 7 < level →
          OnlyAnswers (.setPriority .yard) s .yard f (.refuseField 2 0 []))) ∧
      (∀ (st : Station) (n page : Nat) (f : Frame), s.Offers st 0x50 (u8 n ++ u8 page) f → n < 256 →
        page < 256 →
        (laneNumberOk n = false → OnlyAnswers (.readLane st) s st f (.refuseField 1 0 [])) ∧
        (laneNumberOk n = true → 6 < page → OnlyAnswers (.readLane st) s st f (.refuseField 2 0 []))) ∧
      (∀ (r mask : Nat) (f : Frame), s.Offers .yard 0x23 (u8 r ++ u8 mask) f → r < 256 → mask < 256 →
        (rampNumberOk r = false → OnlyAnswers (.setMask .yard) s .yard f (.refuseField 1 0 [])) ∧
        (rampNumberOk r = true → 7 < mask →
          OnlyAnswers (.setMask .yard) s .yard f (.refuseField 2 0 []))) ∧
      ∀ (c : Instr) (code : Nat) (r : Nat) (f : Frame),
        requestOf c = some (code, .loading) → code = 0x11 ∨ code = 0x12 →
        s.Offers .loading code (u8 r) f → r < 256 → rampNumberOk r = false →
        OnlyAnswers c s .loading f (.refuseField 1 0 [])

/-- In POWER_DOWN, in reset and without supply no frame is taken and no event acts (R165, R168). While no
request of the command's kind can be taken, because none stands in front or the outbound queue is full
(R152), the command does nothing: it is then no step of the controller (the model's choice,
notes/assumptions/3.md). -/
def Obligations.StandstillTakesNothing : Prop :=
  (∀ (c : Instr) (code : Nat) (st : Station) (s : State), requestOf c = some (code, st) →
      (∀ f, s.nextRequest st = some f → f.kind.toNat ≠ code) → exec c s = .next s) ∧
    (∀ (st : Station) (s : State),
      s.working = false ∨ (s.links.get st).queue.length = 16 ∨ (s.links.get st).mailbox = [] →
      s.nextRequest st = none) ∧
    ∀ (s : State) (st : Station) (bytes : List Byte) (code : BitVec 12) (n : Nat), s.working = false →
      exec (.unknownMessageKind st) s = .next s ∧ exec (.frameReceived st bytes) s = .next s ∧
        exec (.frameSent st) s = .next s ∧ exec (.lineBreak st) s = .next s ∧
        exec (.quietLimit st) s = .next s ∧ exec (.loadExpiry n) s = .next s ∧
        exec (.dischargeExpiry n) s = .next s ∧ exec .tankReportExpiry s = .next s ∧
        exec (.sample code) s = .next s ∧ exec .clockAdvance s = .next s ∧
        exec (.moveTimerExpiry n) s = .next s ∧ exec .timeBaseSecond s = .next s

/-- R152: a request taken leaves the mailbox, and its one reply stands next in the link's queue: ACK or
REFUSE, or ASSIGN or WAIT for ARRIVE, with the request's tag and kind. Behind the reply, and on every other
link, notices alone are added: frames of a notice's kind with tag 0. Nothing is lost: what stands in the
queues stays, the other mailboxes stay, and a notice held in a slot is held there still, or a frame of its
kind is among those added (R162). The one exception is the link a LINK_RESET names, which it empties. -/
def Obligations.EveryRequestIsAnswered : Prop :=
  ∀ (c : Instr) (code : Nat) (st : Station) (s : State) (p : List Byte) (f : Frame),
    requestOf c = some (code, st) → s.Offers st code p f →
    ∃ (t : State) (r : Reply), exec c s = .next t ∧
      (t.links.get st).mailbox = (s.links.get st).mailbox.tail ∧
      Link.AddsNotices { s.links.get st with queue := (s.links.get st).queue ++ [replyFrame f r] }
        (t.links.get st) ∧
      (replyFrame f r).tag = f.tag ∧ (replyFrame f r).payload.head? = some (BitVec.ofNat 8 code) ∧
      (match r with
        | .ack _ => True
        | .refuse _ _ => True
        | .refuseField _ _ _ => True
        | .assign _ _ _ _ => code = 0x30
        | .wait _ _ => code = 0x30) ∧
      ∀ o, o ≠ st → (code = 0x10 → stationOf (natOf (field p 0 1)) ≠ some o) →
        (s.links.get o).GrownTo (t.links.get o) ∧ (s.links.get o).AddsNotices (t.links.get o)

/-! Invariants that every step keeps -/

/-- The numbered stores keep their canonical form within the capacities of Table 9-3. -/
def Obligations.StoresStayCanonical : Prop :=
  ∀ s t : State, s.storesOk = true → step s = .next t → t.storesOk = true

/-- Mailboxes, outbound queues and overflow slots keep their bounds, and a slot is released as soon as a
place is free (R151, R153, R161, R162). -/
def Obligations.LinksStayWithinBounds : Prop :=
  ∀ s t : State, s.linksOk = true → step s = .next t → t.linksOk = true

/-- While there is supply the retained image holds the retained contents under a valid integrity word
(R169). -/
def Obligations.ImageFollowsTheState : Prop :=
  ∀ s t : State, s.imageOk = true → step s = .next t → t.imageOk = true

/-- Each section's position, origin, target, fault-held flag, fault cause and timer agree with its state: it
keeps an origin exactly while it moves, and a cause wherever it is in FAULT or holds a fault (R137, R141,
R145). That a stopped timer stands at 0 is the model's choice (notes/assumptions/35.md). -/
def Obligations.SectionsStayCoherent : Prop :=
  ∀ s t : State, s.storesOk = true → s.modeOk = true → s.sectionsOk = true → step s = .next t →
    t.sectionsOk = true

/-- The Heel Monitor's counts agree with its history and state (R67, R68, R71, R72), and the lists, counters
and settings keep their capacities and ranges: register, Movement Table and Waiting List, sequence number,
timeout, clock, seconds and quiet timers (R42, R93, R101, R103, R124, R132, R155), a retry count in the list
of at most 15 (R127), levels and masks of at most 7 (R80, R81), band and heel model as they are clamped (R60,
R66). -/
def Obligations.MonitorAndCountersStayInRange : Prop :=
  (∀ s t : State, s.monitor.ok = true → step s = .next t → t.monitor.ok = true) ∧
    ∀ s t : State, s.boundsOk = true → step s = .next t → t.boundsOk = true

/-- The mode agrees with the seal, reservations and waiting units stand in RUN alone, a reached cut-off
leaves the Waiting List empty, and no divergence is counted in PROFILE (R14, R17, R72, R102, R131, R136,
R164; for CLEAR_PLAN notes/assumptions/32.md). -/
def Obligations.ModeAgreesWithTheSeal : Prop :=
  ∀ s t : State, s.modeOk = true → step s = .next t → t.modeOk = true

/-- The waiting elements are exactly the units whose records are WAITING, no booking twice (R40, R44,
R124). -/
def Obligations.WaitingListMatchesTheRegister : Prop :=
  ∀ s t : State, s.sound = true → step s = .next t → t.waitingOk = true

/-- Lanes, reservations, check records, zone masses, ramp counts, pool and account agree (R19, R23, R25,
R55, R56, R79, R101); a lane has at most one pending movement, and one on or beneath a section that is MOVING
or in FAULT has none (R26). -/
def Obligations.PlanMatchesTheAccount : Prop :=
  ∀ s t : State, s.sound = true → step s = .next t → t.planOk = true

/-- Every occupancy list stays packed from the closed end within its lane (R19, R20, R25). -/
def Obligations.ListsStayPacked : Prop :=
  ∀ s t : State, s.sound = true → step s = .next t → t.listsOk = true

/-- No booking stands twice in the lanes, and every record stands as its state says (R43, R44). -/
def Obligations.BookingsStayUnique : Prop :=
  ∀ s t : State, s.sound = true → step s = .next t → t.bookingsOk = true

/-- R77: a start with the strap WARM leaves Tc, the pending sums, the band and every zone mass as they
were, because each reservation becomes a check record that keeps its booking, ramp, delta, zone and offset
(R38, R122, R123). The sections are settled as R149 gives. That the state before the start is the one the
image holds is `State.imageOk`. -/
def Obligations.WarmStartKeepsTheEnvelopes : Prop :=
  ∀ (s : State) (rates : BitVec 3), s.sound = true → s.control.supplied = true →
    ∃ t, exec (.start .warm rates) s = .next t ∧
      t.account.tc = s.account.tc ∧ t.account.pPlus = s.account.pPlus ∧
      t.account.pMinus = s.account.pMinus ∧ t.account.kp = s.account.kp ∧ t.account.ks = s.account.ks ∧
      t.account.h = s.account.h ∧
      t.zones = s.zones ∧ t.poolInUse = s.poolInUse ∧ t.movements = [] ∧ t.waiting = [] ∧
      (∀ n l, s.lanes.get n = some l → ∃ k, t.lanes.get n = some k ∧ k.profile = l.profile ∧
        k.units = l.units ∧ k.mass = l.mass ∧ k.closed = l.closed ∧ k.level = l.level ∧
        k.inService = false ∧
        (s.reservationOn n = none → k.entries = l.entries ∧ k.check = l.check) ∧
        ∀ r, s.reservationOn n = some r →
          let record (content : CheckContent) : CheckRecord :=
            { booking := r.booking, ramp := r.ramp, delta := r.delta, zone := r.zone, offset := r.offset,
              content := content }
          (r.kind = .load → ∀ e, l.entries.getLast? = some e →
            k.entries = l.entries.dropLast ∧ k.check = some (record (.load e.unit))) ∧
          (r.kind = .discharge →
            k.entries = setLast l.entries .stowed ∧ k.check = some (record .discharge))) ∧
      t.sections.map (·.1) = s.sections.map (·.1) ∧
      (s.isSealed = true → ∀ n c, s.sections.get n = some c →
        t.sections.get n = some (s.warmedSection n c)) ∧
      (s.isSealed = false → ∀ n c, s.sections.get n = some c → ∃ d, t.sections.get n = some d ∧
        d.clearances = c.clearances)

/-! Frames and records on the line -/

/-- Whatever noise comes before it, a frame put on the line is gathered whole and read back as it was sent;
on another link its station number makes it invalid (R151, R170). The CRC of the text 123456789 is
29B1. -/
def Obligations.FramesSurviveTheLine : Prop :=
  crc16 [0x31, 0x32, 0x33, 0x34, 0x35, 0x36, 0x37, 0x38, 0x39] = 0x29B1 ∧
    ∀ (st : Station) (f : Frame) (noise : List Byte), f.payload.length ≤ 100 →
      (∀ b ∈ noise, b ≠ startByte) →
      gather .hunting (noise ++ wireBytes st f) = (.hunting, [wireBytes st f]) ∧
        validFrame st (wireBytes st f) = some f ∧
        ∀ o, o ≠ st → validFrame o (wireBytes st f) = none

/-- A record or description within its ranges is read from its bytes as it stands (Tables 1-2, 1-3, 1-5,
3-1, R172). The order and width of the fields are notes/assumptions/9.md's where Chapter 12 leaves them
open. -/
def Obligations.RecordsSurviveTheirEncoding : Prop :=
  (∀ (n : Nat) (l : LaneProfile), l.rangesOk = true →
      readLaneProfile (u8 n ++ encLaneProfile l) = l ∧
        firstFailing (laneChecks (u8 n ++ encLaneProfile l)) = if l.fits then none else some 3) ∧
    (∀ (n : Nat) (z : Zone), z.inRange = true → readZone (u8 n ++ encZone z) = z) ∧
    (∀ (n : Nat) (c : Clearances), c.inRange = true → readClearances (u8 n ++ encClearances c) = c) ∧
    (∀ (u : UnitFields) (unannounced : Bool), u.inRange = true →
      (rawUnit (encUnitFields u unannounced)).badField = none ∧
        (rawUnit (encUnitFields u unannounced)).fields = u) ∧
    ∀ b : Booking, bookingOk b = true →
      decBooking (encBooking b) = some b ∧ (encBooking b).length = 10

/-! The ship profile -/

/-- R4: a DEF_LANE whose fields are in range is stored and answered with the record; a lane beyond the ship
fails at field 3. One that breaks a range of Table 1-2 is refused FIELD naming the first field that does,
ahead of the check against the ship. Which codes of fields 11 and 12 are out of range is
notes/assumptions/12.md's. The bare run-time fields stored beside the record (notes/assumptions/17.md), the
order and width of the fields in payload and ACK (notes/assumptions/9.md) and the number ahead of the record
in the ACK (notes/assumptions/10.md) are the model's choice. -/
def Obligations.DefinedLanesAreStored : Prop :=
  (∀ (s : State) (n : Nat) (l : LaneProfile) (f : Frame),
      s.Offers .loading 0x01 (u8 n ++ encLaneProfile l) f → s.tablesOk = true → s.modeOk = true →
      s.mode = .profile → laneNumberOk n = true → l.rangesOk = true →
      (l.fits = true →
        exec (.defLane .loading) s =
          .next ((({ s.popMailbox .loading with
              lanes := s.lanes.set n
                { profile := l, entries := [], check := none, closed := false, level := 4, mass := 0,
                  revision := 0, clearance := l.baseClearance } } : State).concluded .loading
            (replyFrame f (.ack (u8 n ++ encLaneProfile l)))))) ∧
        (l.fits = false →
          OnlyAnswers (.defLane .loading) s .loading f (.refuseField 3 0 []))) ∧
    ∀ (s : State) (f : Frame) (p : List Byte) (k : Nat), s.Offers .loading 0x01 p f →
      s.tablesOk = true → s.mode = .profile → p.length = 19 →
      laneNumberOk (natOf (field p 0 1)) = true → FirstBroken (laneBreaches p) k →
      OnlyAnswers (.defLane .loading) s .loading f (.refuseField k 0 [])

/-- R3, R6 to R9: the other DEF_ requests store the record they carry and answer with it. One that breaks a
range of its table, or behind the ranges the order of a zone's boundaries or of a section's clearances, is
refused FIELD naming the first field that does; a reach list without elements or with more than 24 fails at
position 0, an element that is no lane number or repeats an earlier one at its own. The bare run-time
values stored beside it, such as a ramp's mask 7 (notes/assumptions/17.md), the order and width of the fields
in payload and ACK (notes/assumptions/9.md) and the number ahead of the record in the ACK
(notes/assumptions/10.md) are the model's choice, and so is that a zone defined leaves the account revision
(notes/assumptions/14.md). -/
def Obligations.DefinitionsAreStored : Prop :=
  (∀ (s : State) (n : Nat) (z : Zone) (f : Frame),
      s.Offers .loading 0x02 (u8 n ++ encZone z) f → s.sound = true → s.mode = .profile →
      1 ≤ n → n ≤ 16 → z.inRange = true →
      exec (.defZone .loading) s =
        .next (({ s.popMailbox .loading with zones := s.zones.set n z } : State).concluded .loading
          (replyFrame f (.ack (u8 n ++ encZone z))))) ∧
    (∀ (s : State) (n : Nat) (reach : List Nat) (f : Frame),
      s.Offers .loading 0x03 (u8 n ++ encNums reach) f → s.tablesOk = true → s.modeOk = true →
      s.mode = .profile → rampNumberOk n = true → reachOk reach = true →
      exec (.defRamp .loading) s =
        .next (({ s.popMailbox .loading with
            ramps := s.ramps.set n { reach := reach, mask := 7, suspended := false, count := 0 } } :
          State).concluded .loading (replyFrame f (.ack (u8 n ++ encNums reach))))) ∧
    (∀ (s : State) (n : Nat) (c : Clearances) (f : Frame),
      s.Offers .loading 0x04 (u8 n ++ encClearances c) f → s.tablesOk = true → s.modeOk = true →
      s.mode = .profile → sectionNumberOk n = true → c.inRange = true →
      exec (.defSection .loading) s =
        .next (({ s.popMailbox .loading with sections := s.sections.set n (newSection c) } :
          State).concluded .loading (replyFrame f (.ack (u8 n ++ encClearances c))))) ∧
    (∀ (s : State) (gap seg : Nat) (f : Frame),
      s.Offers .loading 0x05 (u8 gap ++ u16 seg) f → s.tablesOk = true → s.modeOk = true →
      s.mode = .profile → gap ≤ 10 → seg ≤ 300 →
      exec (.defShip .loading) s =
        .next (({ s.popMailbox .loading with gap := gap, segregation := seg } : State).concluded .loading
          (replyFrame f (.ack (u8 gap ++ u16 seg))))) ∧
    ∀ (s : State) (f : Frame) (p : List Byte), s.tablesOk = true → s.mode = .profile →
      let n := natOf (field p 0 1)
      (∀ k, s.Offers .loading 0x02 p f → p.length = 8 → 1 ≤ n → n ≤ 16 → FirstBroken (zoneBreaches p) k →
        OnlyAnswers (.defZone .loading) s .loading f (.refuseField k 0 [])) ∧
      (∀ reach : List Nat, s.Offers .loading 0x03 p f → p = u8 n ++ encNums reach →
        rampNumberOk n = true → reach.length < 256 → (∀ e ∈ reach, e < 256) →
        (reach = [] ∨ 24 < reach.length →
          OnlyAnswers (.defRamp .loading) s .loading f (.refuseField 1 0 [])) ∧
        ∀ earlier e later, reach.length ≤ 24 → reach = earlier ++ e :: later →
          (∀ x ∈ earlier, laneNumberOk x = true) → earlier.Nodup →
          laneNumberOk e = false ∨ e ∈ earlier →
          OnlyAnswers (.defRamp .loading) s .loading f (.refuseField 1 (earlier.length + 1) [])) ∧
      (∀ k, s.Offers .loading 0x04 p f → p.length = 13 → sectionNumberOk n = true →
        FirstBroken (sectionBreaches p) k →
        OnlyAnswers (.defSection .loading) s .loading f (.refuseField k 0 [])) ∧
      ∀ k, s.Offers .loading 0x05 p f → p.length = 3 → FirstBroken (shipBreaches p) k →
        OnlyAnswers (.defShip .loading) s .loading f (.refuseField k 0 [])

/-- R3: the form with the record number alone makes the record undefined, and is refused UNKNOWN where it
is undefined already; DEF_SHIP without payload restores the defaults; a record number outside the range of
its table is field 0, in that form and in the full ones. That the ACK of a DEF_SHIP without payload carries
nothing (notes/assumptions/10.md) and that a zone discarded leaves the account revision
(notes/assumptions/14.md) are the model's choice. -/
def Obligations.DefinitionsAreRemoved : Prop :=
  ∀ (s : State) (n : Nat) (f : Frame), s.tablesOk = true → s.modeOk = true → s.mode = .profile → n < 256 →
    (s.Offers .loading 0x01 (u8 n) f → laneNumberOk n = true →
      if (s.lanes.get n).isSome then
        exec (.defLane .loading) s = .next (({ s.popMailbox .loading with lanes := s.lanes.erase n } :
          State).concluded .loading (replyFrame f (.ack [])))
      else OnlyAnswers (.defLane .loading) s .loading f (.refuse .unknown [])) ∧
    (s.Offers .loading 0x02 (u8 n) f → 1 ≤ n → n ≤ 16 →
      if (s.zones.get n).isSome then
        exec (.defZone .loading) s = .next (({ s.popMailbox .loading with zones := s.zones.erase n } :
          State).concluded .loading (replyFrame f (.ack [])))
      else OnlyAnswers (.defZone .loading) s .loading f (.refuse .unknown [])) ∧
    (s.Offers .loading 0x03 (u8 n) f → rampNumberOk n = true →
      if (s.ramps.get n).isSome then
        exec (.defRamp .loading) s = .next (({ s.popMailbox .loading with ramps := s.ramps.erase n } :
          State).concluded .loading (replyFrame f (.ack [])))
      else OnlyAnswers (.defRamp .loading) s .loading f (.refuse .unknown [])) ∧
    (s.Offers .loading 0x04 (u8 n) f → sectionNumberOk n = true →
      if (s.sections.get n).isSome then
        exec (.defSection .loading) s =
          .next (({ s.popMailbox .loading with sections := s.sections.erase n } : State).concluded .loading
            (replyFrame f (.ack [])))
      else OnlyAnswers (.defSection .loading) s .loading f (.refuse .unknown [])) ∧
    (s.Offers .loading 0x05 [] f →
      exec (.defShip .loading) s =
        .next (({ s.popMailbox .loading with gap := 3, segregation := 60 } : State).concluded .loading
          (replyFrame f (.ack [])))) ∧
    ∀ p : List Byte, natOf (field p 0 1) = n →
      (s.Offers .loading 0x01 p f → lengthFits 0x01 p = true → laneNumberOk n = false →
        OnlyAnswers (.defLane .loading) s .loading f (.refuseField 0 0 [])) ∧
      (s.Offers .loading 0x02 p f → lengthFits 0x02 p = true → n = 0 ∨ 16 < n →
        OnlyAnswers (.defZone .loading) s .loading f (.refuseField 0 0 [])) ∧
      (s.Offers .loading 0x03 p f → lengthFits 0x03 p = true → rampNumberOk n = false →
        OnlyAnswers (.defRamp .loading) s .loading f (.refuseField 0 0 [])) ∧
      (s.Offers .loading 0x04 p f → lengthFits 0x04 p = true → sectionNumberOk n = false →
        OnlyAnswers (.defSection .loading) s .loading f (.refuseField 0 0 []))

/-- R10 to R13: SEAL finds no fault exactly when Table 1-7 names none: a lane and a ramp are defined, no two
lanes of a deck and row overlap, no two zones of a deck overlap, reach lists and relations name defined
records, and every section shows one position. Otherwise the refusal names the first item of the table that
fails, with its figures: of two overlapping lanes or zones the first pair by lower, then by higher number, and
of ramps, lanes and sections the first by number. -/
def Obligations.SealPassesExactlyWhen : Prop :=
  ∀ s : State, s.tablesOk = true →
    let overlapping (a b : Nat) : Prop :=
      ∃ la lb, s.lanes.get a = some la ∧ s.lanes.get b = some lb ∧
        la.profile.deck = lb.profile.deck ∧ la.profile.row = lb.profile.row ∧
        max la.profile.extent.lo lb.profile.extent.lo < min la.profile.extent.hi lb.profile.extent.hi
    let meeting (a b : Nat) : Prop :=
      ∃ za zb, s.zones.get a = some za ∧ s.zones.get b = some zb ∧ za.deck = zb.deck ∧
        max za.aft zb.aft < min za.fore zb.fore
    let astray (r at_ n : Nat) : Prop :=
      ∃ row, s.ramps.get r = some row ∧ 1 ≤ at_ ∧ row.reach[at_ - 1]? = some n ∧ s.lanes.get n = none
    let unfounded (n k : Nat) : Prop :=
      ∃ l, s.lanes.get n = some l ∧ l.profile.relation.section? = some k ∧ s.sections.get k = none
    let unplaced (n : Nat) : Prop :=
      (∃ c, s.sections.get n = some c) ∧ inputCount (s.sectionInputs n) ≠ 1
    let earlier (a b c d : Nat) : Prop := a < c ∨ a = c ∧ b < d
    let lanesApart : Prop := ∀ a b, a ≠ b → ¬ overlapping a b
    let zonesApart : Prop := ∀ a b, a ≠ b → ¬ meeting a b
    let reachFound : Prop := ∀ r i n, ¬ astray r i n
    let relationsFound : Prop := ∀ n k, ¬ unfounded n k
    let counted : Prop := s.lanes ≠ [] ∧ s.ramps ≠ []
    (sealFailure s = none ↔
      counted ∧ lanesApart ∧ zonesApart ∧ reachFound ∧ relationsFound ∧ ∀ n, ¬ unplaced n) ∧
    (s.lanes = [] → sealFailure s = some (u8 1)) ∧
    (s.lanes ≠ [] → s.ramps = [] → sealFailure s = some (u8 2)) ∧
    (counted →
      (∀ a b, a < b → overlapping a b →
        (∀ c d, c < d → overlapping c d → ¬ earlier c d a b) →
        sealFailure s = some (u8 3 ++ u8 a ++ u8 b)) ∧
      (lanesApart →
        (∀ a b, a < b → meeting a b → (∀ c d, c < d → meeting c d → ¬ earlier c d a b) →
          sealFailure s = some (u8 4 ++ u8 a ++ u8 b)) ∧
        (zonesApart →
          (∀ r i n, astray r i n → (∀ q j m, astray q j m → ¬ earlier q j r i) →
            sealFailure s = some (u8 5 ++ u8 r ++ u8 i ++ u8 n)) ∧
          (reachFound →
            (∀ n k, unfounded n k → (∀ m j, unfounded m j → n ≤ m) →
              sealFailure s = some (u8 6 ++ u8 n ++ u8 k)) ∧
            (relationsFound →
              ∀ n, unplaced n → (∀ m, unplaced m → n ≤ m) →
                sealFailure s = some (u8 7 ++ u8 n ++ u8 (inputCount (s.sectionInputs n))))))))

/-- R10, R14: a SEAL that finds no fault starts the plan with every run-time field as Table 1-8 gives it, ACK
ahead of MODE; one that finds a fault is refused PROFILE_INVALID and changes nothing. That the stopped move
timers stand at 0 is the model's choice (notes/assumptions/35.md). -/
def Obligations.SealStartsThePlan : Prop :=
  ∀ (s : State) (f : Frame), s.Offers .loading 0x06 [] f → s.tablesOk = true → s.modeOk = true →
    s.mode = .profile →
    (∀ d, sealFailure s = some d →
      OnlyAnswers (.sealPlan .loading) s .loading f (.refuse .profileInvalid d)) ∧
    (sealFailure s = none →
      Answers (.sealPlan .loading) s .loading f (.ack []) [.mode .run .sealed] fun t =>
        t.isSealed = true ∧ t.control = { s.control with work := .run } ∧
        t.lanes.map (·.1) = s.lanes.map (·.1) ∧
        (∀ n l, s.lanes.get n = some l → ∃ k, t.lanes.get n =
            some { profile := l.profile, entries := [], check := none, closed := false, level := 4,
                   mass := 0, revision := 0, clearance := k } ∧
          (l.profile.relation.section? = none → k = l.profile.baseClearance) ∧
          ∀ m c p, l.profile.relation.section? = some m → s.sections.get m = some c →
            shownPosition (s.sectionInputs m) = some p →
            k = if l.isOn m then c.clearances.above p else c.clearances.beneath p) ∧
        t.zones = s.zones.mapAll (fun z => { z with confirmed := 0, pendingLoad := 0 }) ∧
        t.ramps = s.ramps.mapAll
          (fun r => { reach := r.reach, mask := 7, suspended := false, count := 0 }) ∧
        t.sections.map (·.1) = s.sections.map (·.1) ∧
        (∀ n c, s.sections.get n = some c → ∃ p, shownPosition (s.sectionInputs n) = some p ∧
          t.sections.get n = some { newSection c.clearances with position := some p }) ∧
        t.poolInUse = 0 ∧
        { t.account with revision := 0 } =
          { tc := 0, pPlus := 0, pMinus := 0, kp := 0, ks := 0, h := 0, revision := 0 } ∧
        t.seqNext = 1 ∧ t.movements = [] ∧ t.waiting = [] ∧
        t.clock = { now := 0, cutoff := none, reached := false } ∧
        t.register = s.register ∧ t.monitor = s.monitor ∧ t.timeout = s.timeout ∧ t.gap = s.gap ∧
        t.segregation = s.segregation ∧ t.stations = s.stations)

/-- R16, R17: CLEAR_PLAN erases the profile in PROFILE; in RUN and RECOVERY it is refused NOT_EMPTY while a
lane is occupied or a reservation stands, BUSY while a section moves, and otherwise returns to PROFILE with
the waiting units ANNOUNCED and MODE behind the ACK. The divergence count returns to 0, at which R72 has it in
PROFILE (notes/assumptions/32.md). That the zones discarded leave the account revision is the model's choice
(notes/assumptions/14.md). -/
def Obligations.ClearPlanEmptiesThePlan : Prop :=
  ∀ (s : State) (f : Frame), s.Offers .loading 0x07 [] f → s.tablesOk = true →
    (s.mode = .profile →
      exec (.clearPlan .loading) s =
        .next (({ s.popMailbox .loading with
            lanes := [], zones := [], ramps := [], sections := [], gap := 3, segregation := 60,
            isSealed := false, poolInUse := 0 } : State).concluded .loading (replyFrame f (.ack [])))) ∧
    (s.planMode = true →
      ((∃ p ∈ s.lanes, p.2.entries ≠ [] ∨ p.2.check ≠ none) ∨ s.movements ≠ [] →
        OnlyAnswers (.clearPlan .loading) s .loading f (.refuse .notEmpty [])) ∧
      ((∀ p ∈ s.lanes, p.2.entries = [] ∧ p.2.check = none) → s.movements = [] →
        ((∃ c ∈ s.sections, c.2.state = .moving) →
          OnlyAnswers (.clearPlan .loading) s .loading f (.refuse .busy [])) ∧
        ((∀ c ∈ s.sections, c.2.state ≠ .moving) →
          exec (.clearPlan .loading) s =
            .next (({ s.popMailbox .loading with
                lanes := [], zones := [], ramps := [], sections := [], gap := 3, segregation := 60,
                isSealed := false, poolInUse := 0
                register := s.register.map fun r =>
                  if r.state = .waiting then { r with state := .announced } else r
                waiting := []
                monitor := { s.monitor with divergence := 0 }
                clock := { now := 0, cutoff := none, reached := false }
                control := { s.control with work := .profile } } : State).concludedWith .loading
              (replyFrame f (.ack [])) [.mode .profile .clearPlan]))))

/-! Lanes and ramps -/

/-- R31, R32: CLOSE_LANE sets the closed flag, OPEN_LANE clears it; the ACK carries the displayed state and
the in-service attribute after the request and ahead of any pass (notes/assumptions/19.md). With it what
every event does with the lanes it changes: while the profile is sealed before and after it, a lane's
revision rises where its entries, check record, closed flag, level or displayed state differ (R34), and one
LANE_STATE in ascending lane number reports each lane whose displayed state, in-service attribute or number
of entries differs (R29); SEAL and CLEAR_PLAN report none. -/
def Obligations.LanesAreClosedAndOpened : Prop :=
  (∀ (st : Station) (s : State) (n : Nat) (l : Lane) (f : Frame), s.planMode = true →
      laneNumberOk n = true → s.lanes.get n = some l →
      st = .loading ∨ (isRampStation st = true ∧ n ∈ s.reachOf st) →
      (s.Offers st 0x40 (u8 n) f →
        AnswersWith (.closeLane st) s st f
          (.ack (u8 (displayedCode (s.displayed { l with closed := true })) ++ u8 (flagCode l.inService)))
          [] [] { s with lanes := s.lanes.modify n fun q => { q with closed := true } } false) ∧
      (s.Offers st 0x41 (u8 n) f →
        AnswersWith (.openLane st) s st f
          (.ack (u8 (displayedCode (s.displayed { l with closed := false })) ++ u8 (flagCode l.inService)))
          [] [] { s with lanes := s.lanes.modify n fun q => { q with closed := false } } false)) ∧
    ∀ s b : State, s.tablesOk = true → b.tablesOk = true →
      let t := b.reviseLanes s
      (s.isSealed = false ∨ b.isSealed = false → t = b ∧ watchedReports s b t = []) ∧
      (s.isSealed = true → b.isSealed = true →
        t = { b with lanes := t.lanes } ∧ t.lanes.map (·.1) = b.lanes.map (·.1) ∧
        (∀ n l0 l, s.lanes.get n = some l0 → b.lanes.get n = some l →
          t.lanes.get n = some
            { l with
              revision :=
                if l.entries = l0.entries ∧ l.check = l0.check ∧ l.closed = l0.closed ∧
                    l.level = l0.level ∧ b.displayed l = s.displayed l0 then l.revision
                else (l.revision + 1) % 65536 }) ∧
        watchedReports s b t = (List.range' 1 48).filterMap fun n =>
          (s.lanes.get n).bind fun l0 => (t.lanes.get n).bind fun l =>
            if t.displayed l = s.displayed l0 ∧ l.inService = l0.inService ∧
                l.entries.length = l0.entries.length then none
            else some (.laneState n (t.displayed l) l.inService l.entries.length (t.laneEnd l) (t.lamp l)
              l.revision))

/-- R80 to R82: SET_PRIORITY, SET_MASK, SUSPEND_RAMP and RESUME_RAMP store what they carry; all but
SUSPEND_RAMP bring a pass; the ACK of RESUME_RAMP carries the reservation count ahead of it
(notes/assumptions/19.md). With it what a re-examination pass is. R125: an event is a trigger by its own rule,
where a lane has come to show OPEN or FILLING, or where the mode has become RUN; the pass is not run outside
RUN or while the heel stop is set. R126 to R128: it deals with the waiting elements oldest first, each in the
state its elders leave, and gathers their notices in that order. An element of a suspended ramp is skipped; a
unit for which the examination chooses a lane is reserved there, with ASSIGNED and its lane's LANE_STATE; for
any other the retry count rises and the reasons are replaced, and the sixteenth failure excludes the unit,
with EXCLUDED and UNIT_EXCLUDED. -/
def Obligations.LevelsMasksAndSuspensionsAreSet : Prop :=
  (∀ (s : State) (n level : Nat) (l : Lane) (f : Frame), s.Offers .yard 0x22 (u8 n ++ u8 level) f →
      s.planMode = true → laneNumberOk n = true → level ≤ 7 → s.lanes.get n = some l →
      AnswersWith (.setPriority .yard) s .yard f (.ack (u8 n ++ u8 level)) [] []
        { s with lanes := s.lanes.modify n fun q => { q with level := level } } true) ∧
    (∀ (s : State) (r mask : Nat) (row : Ramp) (f : Frame), s.Offers .yard 0x23 (u8 r ++ u8 mask) f →
      s.planMode = true → rampNumberOk r = true → mask ≤ 7 → s.fittedRamp r = some row →
      AnswersWith (.setMask .yard) s .yard f (.ack (u8 r ++ u8 mask)) [] []
        { s with ramps := s.ramps.modify r fun q => { q with mask := mask } } true) ∧
    (∀ (s : State) (r : Nat) (row : Ramp) (f : Frame), s.Offers .loading 0x11 (u8 r) f →
      s.tablesOk = true → s.planMode = true → rampNumberOk r = true → s.fittedRamp r = some row →
      exec (.suspendRamp .loading) s =
        .next (({ s.popMailbox .loading with
            ramps := s.ramps.modify r fun q => { q with suspended := true } } : State).concluded .loading
          (replyFrame f (.ack (u8 r ++ u8 1 ++ u8 row.count))))) ∧
    (∀ (s : State) (r : Nat) (row : Ramp) (f : Frame), s.Offers .loading 0x12 (u8 r) f →
      s.planMode = true → rampNumberOk r = true → s.fittedRamp r = some row →
      AnswersWith (.resumeRamp .loading) s .loading f (.ack (u8 r ++ u8 2 ++ u8 row.count)) [] []
        { s with ramps := s.ramps.modify r fun q => { q with suspended := false } } true) ∧
    (∀ (s b : State) (named : Bool), b.tablesOk = true →
      (triggered s b named = true ↔ named = true ∨ (s.mode ≠ .run ∧ b.mode = .run) ∨
        s.isSealed = true ∧ b.isSealed = true ∧ ∃ n l0 l, s.lanes.get n = some l0 ∧
          b.lanes.get n = some l ∧ b.displayed l ≠ s.displayed l0 ∧
          (b.displayed l = .openLane ∨ b.displayed l = .filling))) ∧
    (∀ s : State, s.PassedInto s.runPass.1 ∧
      (s.mode ≠ .run ∨ s.monitor.stop = true → s.runPass = (s, [])) ∧
      (s.mode = .run → s.monitor.stop = false →
        s.runPass = s.waiting.foldl
          (fun p w => ((p.1.passElement w).1, p.2 ++ (p.1.passElement w).2)) (s, []))) ∧
    ∀ (s : State) (w : Waiting) (row : Ramp) (unit : UnitRecord), s.fittedRamp w.ramp = some row →
      s.findRecord w.booking = some unit →
      (row.suspended = true → s.passElement w = (s, [])) ∧
      (row.suspended = false →
        (∀ rs, s.evaluate row unit.body = .held rs →
          (w.retries + 1 < 16 →
            s.passElement w =
              ({ s with
                  waiting := s.waiting.map fun q =>
                    if q.booking = w.booking then { w with retries := w.retries + 1, reasons := rs }
                    else q }, [])) ∧
          (16 ≤ w.retries + 1 →
            s.passElement w =
              ({ s with
                  waiting := s.waiting.filter fun q => decide (q.booking ≠ w.booking)
                  register := s.register.map fun q =>
                    if q.booking = w.booking then { q with state := .excluded } else q },
                [.excluded w.ramp w.booking (w.retries + 1) rs,
                  .unitExcluded false w.booking w.ramp rs]))) ∧
        ∀ n l, s.evaluate row unit.body = .chosen n → s.lanes.get n = some l →
          let u := unit.body
          let offset := s.laneEnd l
          let zone := s.slotZone l.profile offset u.length
          let d : Int := u.mass * l.profile.arm
          let grown (q : Lane) : Lane :=
            { q with
              entries := q.entries ++
                [{ booking := w.booking, unit := u, offset := offset, state := .reserved }]
              revision := (q.revision + 1) % 65536 }
          let t : State :=
            { s with
              waiting := s.waiting.filter fun q => decide (q.booking ≠ w.booking)
              lanes := s.lanes.modify n grown
              poolInUse := s.poolInUse + 1
              account :=
                { s.account with
                  pPlus := s.account.pPlus + max d 0, pMinus := s.account.pMinus + min d 0 }
              zones := onZone s.zones zone fun z => { z with pendingLoad := z.pendingLoad + u.mass }
              ramps := s.ramps.modify w.ramp fun q => { q with count := q.count + 1 }
              movements := s.movements ++
                [{ kind := .load, lane := n, ramp := w.ramp, booking := w.booking, mass := u.mass,
                   delta := d, zone := zone, offset := offset, seq := s.seqNext, seconds := s.timeout }]
              seqNext := if s.seqNext = 4294967295 then 1 else s.seqNext + 1
              register := s.register.map fun q =>
                if q.booking = w.booking then { q with state := .reserved } else q }
          s.passElement w =
            (t, [.assigned w.ramp w.booking n offset (l.profile.centre offset u.length) s.seqNext
                w.retries,
              .laneState n (t.displayed (grown l)) true (l.entries.length + 1) (t.laneEnd (grown l)) .green
                ((l.revision + 1) % 65536)]))

/-! Stability Account and Heel Monitor -/

/-- R60, R61: BAND clamps and stores its three values, answers with the limits that result, and reports an
envelope that lies beyond them in RUN and RECOVERY, where it brings a pass. With it what every event does
with the account revision: it rises by one where Tc, a pending sum, a zone mass, the band or the allowance in
effect differs (R75; for a zone that the event defines or discards notes/assumptions/14.md). -/
def Obligations.BandIsSetAndChecked : Prop :=
  (∀ (s : State) (f : Frame) (kp ks h : Int),
      -2147483648 ≤ kp → kp < 2147483648 → -2147483648 ≤ ks → ks < 2147483648 →
      -2147483648 ≤ h → h < 2147483648 → s.Offers .loading 0x08 (i32 kp ++ i32 ks ++ i32 h) f →
      let a : Account :=
        { s.account with
          kp := clampInt 0 400000000 kp
          ks := clampInt 0 400000000 ks
          h := clampInt 0 50000000 h }
      let allowance := if s.stations.loading.present then a.h else 0
      let upper := a.kp + allowance
      let lower := -(a.ks + allowance)
      AnswersWith (.band .loading) s .loading f
        (.ack (i32 a.kp ++ i32 a.ks ++ i32 a.h ++ i32 upper ++ i32 lower))
        (if s.planMode = true ∧ (a.tc + a.pPlus > upper ∨ a.tc + a.pMinus < lower) then
          [.bandExceeded false (a.tc + a.pPlus) (a.tc + a.pMinus) upper lower]
        else [])
        [] { s with account := a } s.planMode) ∧
    ∀ s b : State, b.tablesOk = true →
      let changed : Prop :=
        b.account.tc ≠ s.account.tc ∨ b.account.pPlus ≠ s.account.pPlus ∨
          b.account.pMinus ≠ s.account.pMinus ∨ b.account.kp ≠ s.account.kp ∨
          b.account.ks ≠ s.account.ks ∨ b.account.h ≠ s.account.h ∨ b.heff ≠ s.heff ∨
          ∃ n z0 z, s.zones.get n = some z0 ∧ b.zones.get n = some z ∧
            (z.confirmed ≠ z0.confirmed ∨ z.pendingLoad ≠ z0.pendingLoad)
      (changed → b.reviseAccount s =
        { b with account := { b.account with revision := (b.account.revision + 1) % 65536 } }) ∧
      (¬ changed → b.reviseAccount s = b)

/-- R64 to R66, R71: HEEL_MODEL replaces the model and clears history and counts, TANKS holds a fresh
report, and a report that reaches 30 s is stale; each change of monitor state is reported. -/
def Obligations.HeelModelAndTanksAreTaken : Prop :=
  (∀ (s : State) (f : Frame) (kh : Nat) (offset tolerance : Int), kh < 65536 →
      -32768 ≤ offset → offset < 32768 → -32768 ≤ tolerance → tolerance < 32768 →
      s.Offers .loading 0x09 (u16 kh ++ i16 offset ++ i16 tolerance) f → s.tablesOk = true →
      let m : Monitor :=
        { s.monitor with
          kh := kh
          offset := clampInt (-200) 200 offset
          tolerance := clampInt 5 500 tolerance
          history := [], qualified := 0, divergence := 0 }
      exec (.heelModel .loading) s =
        .next (({ s.popMailbox .loading with monitor := m } : State).concludedWith .loading
          (replyFrame f (.ack (u16 m.kh ++ i16 m.offset ++ i16 m.tolerance)))
          (if s.monitor.state = m.state then [] else [.monitorState m.state s.monitor.state m.rail]))) ∧
    (∀ (s : State) (f : Frame) (ta : Int), -2147483648 ≤ ta → ta < 2147483648 →
      s.Offers .loading 0x0A (i32 ta) f → s.tablesOk = true → s.monitor.ok = true →
      let v := clampInt (-400000000) 400000000 ta
      let m : Monitor := { s.monitor with tank := some { ta := v, age := 0, stale := false } }
      exec (.tanks .loading) s =
        .next (({ s.popMailbox .loading with monitor := m } : State).concludedWith .loading
          (replyFrame f (.ack (i32 v)))
          (if s.monitor.state = m.state then [] else [.monitorState m.state s.monitor.state m.rail]))) ∧
    ∀ (s : State) (r : TankReport), s.working = true → s.tablesOk = true → s.monitor.ok = true →
      s.monitor.tank = some r → r.stale = false → 30 ≤ r.age →
      let m : Monitor :=
        { s.monitor with tank := some { r with stale := true }, qualified := 0, divergence := 0 }
      exec .tankReportExpiry s =
        .next (({ s with monitor := m } : State).endedWith
          (if s.monitor.state = m.state then [] else [.monitorState m.state s.monitor.state m.rail]))

/-- R67, R68, R71: the codes 0 and 4095 raise the rail count; any other code ends it, joins the history with
the offset and is counted as qualified in ACTIVE. -/
def Obligations.SamplesAreTaken : Prop :=
  ∀ (s : State) (code : BitVec 12), s.working = true → s.tablesOk = true → s.monitor.ok = true →
    (code.toNat = 0 ∨ code.toNat = 4095 →
      let r : Monitor := { s.monitor with rail := min 4 (s.monitor.rail + 1) }
      let m : Monitor := if r.state = .active then r else { r with qualified := 0, divergence := 0 }
      exec (.sample code) s =
        .next (({ s with monitor := m } : State).endedWith
          (if s.monitor.state = m.state then [] else [.monitorState m.state s.monitor.state m.rail]))) ∧
    (0 < code.toNat → code.toNat < 4095 →
      let m := sampledMonitor s.monitor code
      ¬ (m.state = .active ∧ s.planMode = true ∧ m.qualified = 4) →
      exec (.sample code) s =
        .next (({ s with monitor := m } : State).endedWith
          (if s.monitor.state = m.state then [] else [.monitorState m.state s.monitor.state m.rail])))

/-- R72 to R74: with four qualified samples in RUN or RECOVERY the measured heel is compared with the
predicted one; the fourth divergence in a row sets the heel stop and reports it. RELEASE_STOP does nothing
while the stop is clear, is refused STILL_DIVERGENT while a divergence is counted, and otherwise clears the
stop, reports it and brings a pass. The heels themselves are those of RoundingIsToTheNearest. -/
def Obligations.HeelIsComparedAndReleased : Prop :=
  (∀ (s : State) (code : BitVec 12), s.working = true → s.tablesOk = true → s.monitor.ok = true →
      s.planMode = true → 0 < code.toNat → code.toNat < 4095 →
      let m := sampledMonitor s.monitor code
      m.state = .active → m.qualified = 4 →
      let measured := roundDiv m.history.sum 4
      let count := if m.tolerance < (measured - s.predicted).natAbs then min 4 (m.divergence + 1) else 0
      let sets := decide (count = 4) && decide (m.divergence ≠ 4) && !s.monitor.stop
      exec (.sample code) s =
        .next (({ s with monitor := { m with divergence := count, stop := s.monitor.stop || sets } } :
          State).endedWith
            ((if s.monitor.state = m.state then [] else [.monitorState m.state s.monitor.state m.rail]) ++
              if sets then [.heelStop true (some measured) s.predicted m.tolerance 4] else []))) ∧
    ∀ (s : State) (f : Frame), s.Offers .loading 0x0B [] f → s.tablesOk = true →
      (s.monitor.stop = false → OnlyAnswers (.releaseStop .loading) s .loading f (.ack [])) ∧
      (s.monitor.stop = true → 0 < s.monitor.divergence →
        OnlyAnswers (.releaseStop .loading) s .loading f
          (.refuse .stillDivergent
            (u8 s.monitor.divergence ++ encHeelOpt s.monitor.measured ++ i16 s.predicted))) ∧
      (s.monitor.stop = true → s.monitor.divergence = 0 →
        AnswersWith (.releaseStop .loading) s .loading f (.ack [])
          [.heelStop false s.monitor.measured s.predicted s.monitor.tolerance 0] []
          { s with monitor := { s.monitor with stop := false } } true)

/-- R69, R70: the measured heel is a quarter of the sum of four samples, absent with fewer; the predicted heel
is the net moment Tc + Ta, Ta being 0 without a tank report, times Kh over 16,777,216, within −3000 to +3000.
Both divisions round to the nearest integer, and a half away from zero. -/
def Obligations.RoundingIsToTheNearest : Prop :=
  (∀ (n : Int) (d : Nat), 0 < d →
      2 * (n - d * roundDiv n d).natAbs ≤ d ∧
        (2 * (n - d * roundDiv n d).natAbs = d → n.natAbs < d * (roundDiv n d).natAbs)) ∧
    (∀ m : Monitor, (m.history.length = 4 → m.measured = some (roundDiv m.history.sum 4)) ∧
      (m.history.length ≠ 4 → m.measured = none)) ∧
    ∀ s : State,
      let net (ta : Int) : Int := roundDiv ((s.account.tc + ta) * s.monitor.kh) 16777216
      (s.monitor.tank = none → s.predicted = max (-3000) (min 3000 (net 0))) ∧
      (∀ r, s.monitor.tank = some r → s.predicted = max (-3000) (min 3000 (net r.ta))) ∧
      (s.monitor.kh = 0 → s.predicted = 0) ∧ -3000 ≤ s.predicted ∧ s.predicted ≤ 3000

/-! Units -/

/-- R46, R47, R50: ANNOUNCE with a well-formed booking and fields in range creates the record or replaces
an ANNOUNCED or EXCLUDED one; a booking aboard or on its way is IN_USE, a full register FULL, a malformed
booking field 1, and otherwise the first failing field is named. The last byte of the ACK and the place of
the unannounced flag in the record it carries are notes/assumptions/10.md's. That a record created stands at
the end of the register and one replaced in its place is the model's choice (notes/assumptions/23.md), and so
is that a flags bit above the defined ones fails field 7 (notes/assumptions/12.md). -/
def Obligations.AnnouncedUnitsAreRegistered : Prop :=
  (∀ (s : State) (f : Frame) (b : Booking) (u : UnitFields) (flag : Bool), bookingOk b = true →
      u.inRange = true → s.Offers .yard 0x20 (encBooking b ++ encUnitFields u flag) f →
      s.tablesOk = true →
      let unit : UnitRecord := { booking := b, fields := u, unannounced := false, state := .announced }
      ((s.findEntry b).isSome = true →
        OnlyAnswers (.announce .yard) s .yard f (.refuse .inUse [])) ∧
      (s.findEntry b = none → ∀ old, s.findRecord b = some old →
        (old.state = .waiting ∨ old.state = .reserved ∨ old.state = .check →
          OnlyAnswers (.announce .yard) s .yard f (.refuse .inUse [])) ∧
        (old.state = .announced ∨ old.state = .excluded →
          exec (.announce .yard) s =
            .next (({ s.popMailbox .yard with
                register := s.register.map fun q => if q.booking = b then unit else q } :
              State).concluded .yard (replyFrame f (.ack (encRecord unit ++ u8 2)))))) ∧
      (s.findEntry b = none → s.findRecord b = none →
        (s.register.length < 256 →
          exec (.announce .yard) s =
            .next (({ s.popMailbox .yard with register := s.register ++ [unit] } : State).concluded .yard
              (replyFrame f (.ack (encRecord unit ++ u8 1))))) ∧
        (256 ≤ s.register.length →
          OnlyAnswers (.announce .yard) s .yard f (.refuse .full []))) ) ∧
    ∀ (s : State) (f : Frame) (p : List Byte), s.Offers .yard 0x20 p f → s.tablesOk = true →
      p.length = 20 →
      (decBooking (field p 0 10) = none →
        OnlyAnswers (.announce .yard) s .yard f (.refuseField 1 0 [])) ∧
      (∀ b k, decBooking (field p 0 10) = some b → (rawUnit (p.drop 10)).badField = some k →
        OnlyAnswers (.announce .yard) s .yard f (.refuseField k 0 []))

/-- R48, R130. -/
def Obligations.WithdrawnUnitsLeave : Prop :=
  (∀ (st : Station) (s : State) (f : Frame) (p : List Byte), s.Offers st 0x21 p f → s.tablesOk = true →
    (st ≠ .yard → OnlyAnswers (.withdraw st) s st f (.refuse .authority [])) ∧
    (st = .yard → p.length = 10 → decBooking p = none →
      OnlyAnswers (.withdraw st) s st f (.refuseField 1 0 []))) ∧
  ∀ (s : State) (f : Frame) (b : Booking), bookingOk b = true →
    s.Offers .yard 0x21 (encBooking b) f → s.tablesOk = true →
    (∀ r, s.findRecord b = some r →
      ((s.register.map (·.booking)).Nodup →
        (s.register.filter fun q => decide (q.booking ≠ b)).length + 1 = s.register.length) ∧
      (r.state = .announced ∨ r.state = .excluded →
        exec (.withdraw .yard) s =
          .next (({ s.popMailbox .yard with
              register := s.register.filter fun q => decide (q.booking ≠ b) } : State).concluded .yard
            (replyFrame f (.ack (u8 (unitStateCode r.state)))))) ∧
      (r.state = .waiting → ∀ pos w, s.waitingAt b = some (pos, w) →
        exec (.withdraw .yard) s =
          .next (({ s.popMailbox .yard with
              register := s.register.filter fun q => decide (q.booking ≠ b)
              waiting := s.waiting.filter fun q => decide (q.booking ≠ b) } : State).concludedWith .yard
            (replyFrame f (.ack (u8 2))) [.withdrawn w.ramp b pos w.retries])) ∧
      (r.state = .reserved ∨ r.state = .check →
        OnlyAnswers (.withdraw .yard) s .yard f (.refuse .inUse []))) ∧
    (s.findRecord b = none →
      OnlyAnswers (.withdraw .yard) s .yard f
        (.refuse (if (s.findEntry b).isSome then .inUse else .unknown) []))

/-- R129. That the UNKNOWN refusal carries nothing where no record holds the booking is the model's choice
(notes/assumptions/10.md). -/
def Obligations.SentBackUnitsReturn : Prop :=
  ∀ (st : Station) (s : State) (f : Frame) (p : List Byte), s.Offers st 0x33 p f → s.tablesOk = true →
    (isRampStation st = false → OnlyAnswers (.sendBack st) s st f (.refuse .authority [])) ∧
    (isRampStation st = true → s.mode = .profile →
      OnlyAnswers (.sendBack st) s st f (.refuse .mode [])) ∧
    (isRampStation st = true → s.planMode = true → p.length = 10 →
      (decBooking p = none → OnlyAnswers (.sendBack st) s st f (.refuseField 1 0 [])) ∧
      (∀ b, decBooking p = some b →
        ((∀ w ∈ s.waiting, w.booking ≠ b) →
          OnlyAnswers (.sendBack st) s st f
            (.refuse .unknown
              ((s.findRecord b).toList.flatMap fun r => u8 (unitStateCode r.state)))) ∧
        (∀ pos w, s.waitingAt b = some (pos, w) →
          (rampOf st ≠ some w.ramp →
            OnlyAnswers (.sendBack st) s st f (.refuse .mismatch (u8 w.ramp))) ∧
          (rampOf st = some w.ramp →
            exec (.sendBack st) s =
              .next (({ s.popMailbox st with
                  waiting := s.waiting.filter fun q => decide (q.booking ≠ b)
                  register := s.register.map fun r =>
                    if r.booking = b then { r with state := .announced } else r } :
                State).concluded st
                  (replyFrame f
                    (.ack (encBooking b ++ u8 pos ++ u8 w.retries ++ encReasons w.reasons))))))))

/-! Admission -/

/-- R84 to R91: the lane an examination chooses stands in the ramp's reach and takes the unit in every
respect: level, section, displayed state, service, list, kind, length, height, order of discharge, reefer
sockets, dangerous goods, lane and zone mass and both heel envelopes; and a device limit leaves a
place. Conversely a lane that takes the unit so has no reason against it, a lane that does not has one, and
while no device limit is reached an examination with such a lane in reach chooses one. -/
def Obligations.ChosenLaneFitsTheUnit : Prop :=
  (∀ (s : State) (r : Ramp) (u : UnitBody) (n : Nat), s.evaluate r u = .chosen n →
      s.movements.length < 16 ∧ r.count < 6 ∧ s.poolInUse < 640 ∧ n ∈ r.reach ∧
      ∃ l, s.lanes.get n = some l ∧ s.Takes r.mask u l) ∧
    (∀ (s : State) (mask : Nat) (u : UnitBody) (l : Lane), s.tablesOk = true →
      (s.laneReason mask u l = none ↔ s.Takes mask u l)) ∧
    ∀ (s : State) (r : Ramp) (u : UnitBody) (m : Nat) (l : Lane), s.tablesOk = true →
      s.movements.length < 16 → r.count < 6 → s.poolInUse < 640 → m ∈ r.reach →
      s.lanes.get m = some l → s.Takes r.mask u l → ∃ n, s.evaluate r u = .chosen n

/-- R84, R85, R92, R94: a reached device limit answers LIMIT for the whole reach; otherwise a lane's reason
is its first failing test, the chosen lane goes before every other lane that passes by level, length left,
centred figure and number, and without such a lane the list counts each reason in the order of
Table 5-3. -/
def Obligations.ExaminationFollowsItsSteps : Prop :=
  ∀ (s : State) (r : Ramp) (u : UnitBody),
    (16 ≤ s.movements.length ∨ 6 ≤ r.count ∨ 640 ≤ s.poolInUse →
      s.evaluate r u = .held [(.limit, r.reach.length)]) ∧
    (∀ l w, s.laneReason r.mask u l = some w ↔
      ∃ before after, s.candidateTests r.mask u l = before ++ (w, true) :: after ∧
        ∀ x ∈ before, x.2 = false) ∧
    (∀ n l, s.evaluate r u = .chosen n → s.lanes.get n = some l →
      ∀ m k, m ∈ r.reach → s.lanes.get m = some k → s.laneReason r.mask u k = none → m ≠ n →
        let left (x : Lane) : Nat := x.profile.length - s.laneEnd x - u.length
        let centred (x : Lane) : Nat :=
          (s.account.tc + s.account.pPlus + s.account.pMinus + u.mass * x.profile.arm).natAbs
        l.level < k.level ∨ l.level = k.level ∧
          (left l < left k ∨ left l = left k ∧
            (centred l < centred k ∨ centred l = centred k ∧ n < m))) ∧
    (s.movements.length < 16 → r.count < 6 → s.poolInUse < 640 → ∀ rs, s.evaluate r u = .held rs →
      (∀ m k, m ∈ r.reach → s.lanes.get m = some k → s.laneReason r.mask u k ≠ none) ∧
      (rs.map (·.1)).Sublist allReasons ∧
      ∀ w k, (w, k) ∈ rs ↔ 0 < k ∧
        k = (r.reach.filter fun m =>
          decide ((s.lanes.get m).bind (s.laneReason r.mask u) = some w)).length)

/-- R49, R50 (Table 3-5): the booking lookup of an ARRIVE. That a record created stands at the end of the
register is the model's choice (notes/assumptions/23.md), and so is that a flags bit above the defined ones
fails field 7 (notes/assumptions/12.md). -/
def Obligations.BookingsAreLookedUp : Prop :=
  ∀ (s : State) (b : Booking) (description : Option RawUnit),
    (∀ r, s.findRecord b = some r →
      (r.state = .announced → lookupUnit s b description = .use s r false) ∧
      (r.state = .excluded → lookupUnit s b description =
        .use
          { s with
            register := s.register.map fun q =>
              if q.booking = b then { q with state := .announced } else q }
          { r with state := .announced } false) ∧
      (r.state = .waiting ∨ r.state = .reserved ∨ r.state = .check →
        lookupUnit s b description = .stop (.refuse .inUse []))) ∧
    (s.findRecord b = none →
      ((s.findEntry b).isSome = true ∨ (∃ p ∈ s.lanes, p.2.check.map (·.booking) = some b) →
        lookupUnit s b description = .stop (.refuse .inUse [])) ∧
      (s.findEntry b = none → (∀ p ∈ s.lanes, p.2.check.map (·.booking) ≠ some b) →
        (description = none → lookupUnit s b description = .stop (.refuse .unknown [])) ∧
        (∀ raw k, description = some raw → raw.badField = some k →
          lookupUnit s b description = .stop (.refuseField k 0 [])) ∧
        (∀ u flag, u.inRange = true → description = some (rawUnit (encUnitFields u flag)) →
          (256 ≤ s.register.length → lookupUnit s b description = .stop (.refuse .full [])) ∧
          (s.register.length < 256 →
            let unit : UnitRecord :=
              { booking := b, fields := u, unannounced := true, state := .announced }
            lookupUnit s b description = .use { s with register := s.register ++ [unit] } unit true))))

/-- R83, R92, R93: an ARRIVE whose lookup delivers a unit and whose examination chooses a lane reserves the
slot at the lane's end: entry, pool, pending sum, zone, ramp count, reservation, sequence number and record,
answered ASSIGN; a lane that turns from OPEN to FILLING makes it a trigger. `base` is the state the lookup
leaves. -/
def Obligations.ArrivalsAreAssigned : Prop :=
  ∀ (st : Station) (s base : State) (f : Frame) (p : List Byte) (ramp n : Nat) (row : Ramp) (b : Booking)
      (unit : UnitRecord) (created : Bool) (l : Lane),
    s.Offers st 0x30 p f → rampOf st = some ramp → s.mode = .run → s.fittedRamp ramp = some row →
    row.suspended = false → s.clock.reached = false → s.monitor.stop = false →
    p.length = 10 ∨ p.length = 20 → decBooking (field p 0 10) = some b →
    lookupUnit s b (if p.length = 20 then some (rawUnit (p.drop 10)) else none) =
      .use base unit created →
    base.evaluate row unit.body = .chosen n → s.lanes.get n = some l →
    let u := unit.body
    let offset := s.laneEnd l
    let centre := l.profile.centre offset u.length
    let zone := s.slotZone l.profile offset u.length
    let d : Int := u.mass * l.profile.arm
    let reserved : State :=
      { base with
        lanes := s.lanes.modify n fun q =>
          { q with entries := q.entries ++
            [{ booking := unit.booking, unit := u, offset := offset, state := .reserved }] }
        poolInUse := s.poolInUse + 1
        account :=
          { s.account with pPlus := s.account.pPlus + max d 0, pMinus := s.account.pMinus + min d 0 }
        zones := onZone s.zones zone fun z => { z with pendingLoad := z.pendingLoad + u.mass }
        ramps := s.ramps.modify ramp fun q => { q with count := q.count + 1 }
        movements := s.movements ++
          [{ kind := .load, lane := n, ramp := ramp, booking := unit.booking, mass := u.mass, delta := d,
             zone := zone, offset := offset, seq := s.seqNext, seconds := s.timeout }]
        seqNext := if s.seqNext = 4294967295 then 1 else s.seqNext + 1
        register := base.register.map fun r =>
          if r.booking = unit.booking then { r with state := .reserved } else r }
    AnswersWith (.arrive st) s st f (.assign n offset centre s.seqNext)
      (if created then [.unannouncedUnit b ramp unit.fields] else []) [] reserved false

/-- R73, R83, R94: an ARRIVE whose examination chooses no lane, or that finds the heel stop set, puts the
unit on the Waiting List and answers WAIT with its position and reasons, or is refused LIST_FULL; a ramp
that is suspended and a cut-off that is reached refuse it, and so does a malformed booking. -/
def Obligations.ArrivalsWait : Prop :=
  ∀ (st : Station) (s : State) (f : Frame) (p : List Byte) (ramp : Nat) (row : Ramp),
    s.Offers st 0x30 p f → s.tablesOk = true → rampOf st = some ramp → s.mode = .run →
    s.fittedRamp ramp = some row →
    (row.suspended = true → OnlyAnswers (.arrive st) s st f (.refuse .suspended [])) ∧
    (row.suspended = false → s.clock.reached = true →
      OnlyAnswers (.arrive st) s st f (.refuse .cutoff [])) ∧
    (row.suspended = false → s.clock.reached = false → p.length = 10 ∨ p.length = 20 →
      (decBooking (field p 0 10) = none → OnlyAnswers (.arrive st) s st f (.refuseField 1 0 [])) ∧
      ∀ b, decBooking (field p 0 10) = some b →
        let found := lookupUnit s b (if p.length = 20 then some (rawUnit (p.drop 10)) else none)
        (∀ r, found = .stop r → OnlyAnswers (.arrive st) s st f r) ∧
        ∀ base unit created rs, found = .use base unit created →
          (s.monitor.stop = true ∧ rs = [(.heelStop, row.reach.length)]) ∨
            (s.monitor.stop = false ∧ base.evaluate row unit.body = .held rs) →
          let head := if created then [Notice.unannouncedUnit b ramp unit.fields] else []
          (s.waiting.length < 16 →
            exec (.arrive st) s =
              .next (({ base.popMailbox st with
                  register := base.register.map fun r =>
                    if r.booking = unit.booking then { r with state := .waiting } else r
                  waiting := s.waiting ++
                    [{ booking := unit.booking, ramp := ramp, retries := 0, reasons := rs }] } :
                State).concludedWith st (replyFrame f (.wait (s.waiting.length + 1) rs)) head)) ∧
          (16 ≤ s.waiting.length →
            exec (.arrive st) s =
              .next ((base.popMailbox st).concludedWith st
                (replyFrame f (.refuse .listFull (encReasons rs))) head)))

/-- R96 to R99: UNLASH of a STOWED open-end entry in reach, with a place in the Movement Table and inside
the band, makes it LEAVING and reserves its discharge; each failing check names its reason, a malformed
booking field 1. -/
def Obligations.UnlashReleasesTheOpenEndUnit : Prop :=
  (∀ (st : Station) (s : State) (f : Frame) (ramp : Nat) (row : Ramp) (p : List Byte),
    s.Offers st 0x34 p f → s.tablesOk = true → rampOf st = some ramp → s.mode = .run →
    s.fittedRamp ramp = some row → row.suspended = false → s.monitor.stop = false → p.length = 10 →
    decBooking p = none → OnlyAnswers (.unlash st) s st f (.refuseField 1 0 [])) ∧
  ∀ (st : Station) (s : State) (f : Frame) (ramp : Nat) (row : Ramp) (b : Booking),
    bookingOk b = true → s.Offers st 0x34 (encBooking b) f → s.tablesOk = true →
    rampOf st = some ramp → s.mode = .run → s.fittedRamp ramp = some row →
    (row.suspended = true → OnlyAnswers (.unlash st) s st f (.refuse .suspended [])) ∧
    (row.suspended = false → s.monitor.stop = true →
      OnlyAnswers (.unlash st) s st f (.refuse .heelStop [])) ∧
    (row.suspended = false → s.monitor.stop = false →
      (s.findEntry b = none →
        OnlyAnswers (.unlash st) s st f
          (.refuse (if (s.findLoadCheck b).isSome then .inUse else .unknown) [])) ∧
      ∀ g, s.findEntry b = some g →
        let d : Int := -(g.entry.unit.mass * g.lane.profile.arm)
        let shown := s.displayed g.lane
        let stuck := decide (shown = .check) || decide (shown = .moving) || decide (shown = .away) ||
          s.laneSectionPending g.lane || g.lane.inService
        let behind := g.lane.entries.length - g.position
        let full := decide (16 ≤ s.movements.length) || decide (6 ≤ row.count)
        (g.entry.state ≠ .stowed → OnlyAnswers (.unlash st) s st f (.refuse .inUse [])) ∧
        (g.entry.state = .stowed → g.laneNo ∉ row.reach →
          OnlyAnswers (.unlash st) s st f (.refuse .reach [])) ∧
        (g.entry.state = .stowed → g.laneNo ∈ row.reach →
          (stuck = true → OnlyAnswers (.unlash st) s st f (.refuse .busy [])) ∧
          (stuck = false → 0 < behind →
            OnlyAnswers (.unlash st) s st f (.refuse .buried (u8 behind))) ∧
          (stuck = false → behind = 0 → full = true →
            OnlyAnswers (.unlash st) s st f (.refuse .full [])) ∧
          (stuck = false → behind = 0 → full = false →
            (0 < d → s.upperLimit < s.account.tc + s.account.pPlus + d →
              OnlyAnswers (.unlash st) s st f
                (.refuse .heel (i32 (s.account.tc + s.account.pPlus + d) ++ i32 s.upperLimit))) ∧
            (d < 0 → s.account.tc + s.account.pMinus + d < s.lowerLimit →
              OnlyAnswers (.unlash st) s st f
                (.refuse .heel (i32 (s.account.tc + s.account.pMinus + d) ++ i32 s.lowerLimit))) ∧
            ((0 < d → s.account.tc + s.account.pPlus + d ≤ s.upperLimit) →
              (d < 0 → s.lowerLimit ≤ s.account.tc + s.account.pMinus + d) →
              AnswersWith (.unlash st) s st f
                (.ack (u8 g.laneNo ++ u8 g.position ++ u16 g.entry.offset ++ i32 d ++ u32 s.seqNext))
                [] []
                  { s with
                      lanes := s.lanes.modify g.laneNo fun q =>
                        { q with entries := setLast q.entries .leaving }
                      account :=
                        { s.account with
                          pPlus := s.account.pPlus + max d 0
                          pMinus := s.account.pMinus + min d 0 }
                      ramps := s.ramps.modify ramp fun q => { q with count := q.count + 1 }
                      movements := s.movements ++
                        [{ kind := .discharge, lane := g.laneNo, ramp := ramp, booking := b,
                           mass := g.entry.unit.mass, delta := d,
                           zone := s.slotZone g.lane.profile g.entry.offset g.entry.unit.length,
                           offset := g.entry.offset, seq := s.seqNext, seconds := s.timeout }]
                      seqNext := if s.seqNext = 4294967295 then 1 else s.seqNext + 1 } false))))

/-! Movements -/

/-- R107, R109, R110: LASHED and BACKOUT, without operands for the oldest LOAD reservation of the ramp or
naming lane and booking of any, stow the unit or take it out; ACK, UNIT_STOWED, the lane's report and the
section's move follow (R114), and a pass. `State.resolved` is the section's part. Without a movement that
Table 6-3 resolves them to, they are refused by the first check of R107 that fails or by the row of the table
(R108): MISMATCH carries kind and booking of the movement, the NO_MOVEMENT of a BACKOUT for a check record
every field of it (Table 2-3). That the bytes of a movement begin with 1 for a reservation and 2 for a check
record, and the place of the unannounced flag in the record, are the model's choice (notes/assumptions/10.md).
-/
def Obligations.LoadsAreConfirmed : Prop :=
  (∀ (c : Instr) (code : Nat) (st : Station) (s : State) (f : Frame) (p : List Byte) (ramp : Nat),
    requestOf c = some (code, st) → code = 0x31 ∨ code = 0x32 → s.Offers st code p f →
    s.tablesOk = true → rampOf st = some ramp → s.planMode = true →
    (p = [] → s.oldest ramp .load = none → OnlyAnswers c s st f (.refuse .noMovement [])) ∧
    (∀ n, n < 256 → p.length = 11 → field p 0 1 = u8 n →
      (laneNumberOk n = false → OnlyAnswers c s st f (.refuseField 2 0 [])) ∧
      (laneNumberOk n = true → decBooking (field p 1 10) = none →
        OnlyAnswers c s st f (.refuseField 1 0 [])) ∧
      ∀ b, laneNumberOk n = true → decBooking (field p 1 10) = some b →
        (s.lanes.get n = none → OnlyAnswers c s st f (.refuse .unknown [])) ∧
        ∀ l, s.lanes.get n = some l →
          (∀ r, s.reservationOn n = some r → r.kind = .discharge ∨ r.booking ≠ b →
            OnlyAnswers c s st f
              (.refuse .mismatch (u8 1 ++ u8 (moveKindCode r.kind) ++ encBooking r.booking))) ∧
          (s.reservationOn n = none →
            (l.check = none → OnlyAnswers c s st f (.refuse .noMovement [])) ∧
            ∀ k, l.check = some k →
              (k.content = .discharge ∨ k.booking ≠ b →
                OnlyAnswers c s st f
                  (.refuse .mismatch (u8 2 ++ u8 (moveKindCode k.kind) ++ encBooking k.booking))) ∧
              (∀ u, k.content = .load u → k.booking = b → code = 0x32 →
                OnlyAnswers c s st f
                  (.refuse .noMovement
                    (u8 1 ++ encBooking b ++ u8 k.ramp ++ i32 k.delta ++ u8 (k.zone.getD 0) ++
                      u16 k.offset ++ encUnitBody u)))))) ∧
  ∀ (st : Station) (s : State) (f : Frame) (p : List Byte) (ramp : Nat) (r : Reservation) (l : Lane),
    s.sound = true → rampOf st = some ramp → s.planMode = true → s.lanes.get r.lane = some l →
    (p = [] ∧ s.oldest ramp .load = some r) ∨
      (p = u8 r.lane ++ encBooking r.booking ∧ bookingOk r.booking = true ∧ r.kind = .load ∧
        s.reservationOn r.lane = some r) →
    let released : State :=
      { s with
        movements := s.movements.eraseP fun q => decide (q.lane = r.lane)
        ramps := s.ramps.modify r.ramp fun q => { q with count := q.count - 1 } }
    (s.Offers st 0x31 p f →
      let stowed : State :=
        { released with
          lanes := s.lanes.modify r.lane fun q =>
            { q with entries := setLast q.entries .stowed, mass := q.mass + r.mass }
          account :=
            { s.account with
              tc := s.account.tc + r.delta
              pPlus := s.account.pPlus - max r.delta 0
              pMinus := s.account.pMinus - min r.delta 0 }
          zones := onZone s.zones r.zone fun z =>
            { z with pendingLoad := z.pendingLoad - r.mass, confirmed := z.confirmed + r.mass }
          register := s.register.filter fun q => decide (q.booking ≠ r.booking) }
      AnswersWith (.lashed st) s st f
        (.ack (u8 r.lane ++ encBooking r.booking ++ u8 l.entries.length ++ u16 r.offset ++ u8 1))
        [.unitStowed r.booking r.lane l.entries.length r.offset r.ramp r.mass r.delta false
          (s.account.tc + r.delta)]
        (stowed.resolved r.lane).2 (stowed.resolved r.lane).1 true) ∧
    (s.Offers st 0x32 p f →
      let removed : State :=
        { released with
          lanes := s.lanes.modify r.lane fun q => { q with entries := q.entries.dropLast }
          poolInUse := s.poolInUse - 1
          account :=
            { s.account with
              pPlus := s.account.pPlus - max r.delta 0
              pMinus := s.account.pMinus - min r.delta 0 }
          zones := onZone s.zones r.zone fun z => { z with pendingLoad := z.pendingLoad - r.mass }
          register := s.register.map fun q =>
            if q.booking = r.booking then { q with state := .announced } else q }
      AnswersWith (.backout st) s st f (.ack (u8 r.lane ++ encBooking r.booking)) []
        (removed.resolved r.lane).2 (removed.resolved r.lane).1 true)

/-- R107, R111 to R113: OFFLOADED and KEEP, without operands for the oldest DISCHARGE reservation of the
ramp or naming the booking of any, take the unit out or leave it STOWED. Without a movement that Table 6-4
resolves them to, they are refused by the first check of R107 that fails or by the row of the table (R111);
the bytes of a movement and of a check record are as in LoadsAreConfirmed (notes/assumptions/10.md). -/
def Obligations.DischargesAreConfirmed : Prop :=
  (∀ (c : Instr) (code : Nat) (st : Station) (s : State) (f : Frame) (p : List Byte) (ramp : Nat),
    requestOf c = some (code, st) → code = 0x35 ∨ code = 0x36 → s.Offers st code p f →
    s.tablesOk = true → rampOf st = some ramp → s.planMode = true →
    (p = [] → s.oldest ramp .discharge = none → OnlyAnswers c s st f (.refuse .noMovement [])) ∧
    (p.length = 10 → decBooking p = none → OnlyAnswers c s st f (.refuseField 1 0 [])) ∧
    ∀ b, p.length = 10 → decBooking p = some b →
      (s.findEntry b = none →
        (s.findLoadCheck b = none → OnlyAnswers c s st f (.refuse .unknown [])) ∧
        ∀ k, s.findLoadCheck b = some k → s.reservationOn k.1 = none →
          OnlyAnswers c s st f (.refuse .mismatch (u8 k.1 ++ u8 2 ++ u8 1 ++ encBooking b))) ∧
      ∀ g, s.findEntry b = some g →
        (∀ r, g.entry.state = .reserved → s.reservationOn g.laneNo = some r →
          OnlyAnswers c s st f
            (.refuse .mismatch
              (u8 g.laneNo ++ u8 1 ++ u8 (moveKindCode r.kind) ++ encBooking r.booking))) ∧
        (g.entry.state = .stowed →
          (∀ k, g.lane.check = some k → k.content = .discharge → k.booking = b →
            g.position = g.lane.entries.length → s.reservationOn g.laneNo = none → code = 0x36 →
            OnlyAnswers c s st f
              (.refuse .noMovement
                (u8 2 ++ encBooking b ++ u8 k.ramp ++ i32 k.delta ++ u8 (k.zone.getD 0) ++ u16 k.offset))) ∧
          ((∀ k, g.lane.check = some k →
              k.content ≠ .discharge ∨ k.booking ≠ b ∨ g.position ≠ g.lane.entries.length) →
            OnlyAnswers c s st f (.refuse .noMovement [])))) ∧
  ∀ (st : Station) (s : State) (f : Frame) (p : List Byte) (ramp : Nat) (r : Reservation),
    s.sound = true → rampOf st = some ramp → s.planMode = true →
    (p = [] ∧ s.oldest ramp .discharge = some r) ∨
      (p = encBooking r.booking ∧ bookingOk r.booking = true ∧ r.kind = .discharge ∧
        s.reservationOn r.lane = some r) →
    let released : State :=
      { s with
        movements := s.movements.eraseP fun q => decide (q.lane = r.lane)
        ramps := s.ramps.modify r.ramp fun q => { q with count := q.count - 1 } }
    (s.Offers st 0x35 p f →
      let gone : State :=
        { released with
          lanes := s.lanes.modify r.lane fun q =>
            { q with entries := q.entries.dropLast, mass := q.mass - r.mass }
          poolInUse := s.poolInUse - 1
          account :=
            { s.account with
              tc := s.account.tc + r.delta
              pPlus := s.account.pPlus - max r.delta 0
              pMinus := s.account.pMinus - min r.delta 0 }
          zones := onZone s.zones r.zone fun z => { z with confirmed := z.confirmed - r.mass } }
      AnswersWith (.offloaded st) s st f (.ack (u8 r.lane ++ encBooking r.booking ++ u8 1))
        [.unitDischarged r.booking r.lane r.ramp r.mass r.delta false (s.account.tc + r.delta)]
        (gone.resolved r.lane).2 (gone.resolved r.lane).1 true) ∧
    (s.Offers st 0x36 p f →
      let kept : State :=
        { released with
          lanes := s.lanes.modify r.lane fun q => { q with entries := setLast q.entries .stowed }
          account :=
            { s.account with
              pPlus := s.account.pPlus - max r.delta 0
              pMinus := s.account.pMinus - min r.delta 0 } }
      AnswersWith (.keep st) s st f (.ack (u8 r.lane ++ encBooking r.booking)) []
        (kept.resolved r.lane).2 (kept.resolved r.lane).1 true)

/-- R115 to R117: a LASHED for a LOAD check record is refused CONFLICT where the unit does not fit its slot
in length or height, and otherwise stows it, reporting an envelope that its HEEL test finds beyond the
limit; an OFFLOADED for a DISCHARGE check record takes the unit out and reports every envelope beyond its
limit. That LENGTH, HEIGHT and HEEL take their reason-list codes 7, 8 and 14 there is the model's choice
(notes/assumptions/11.md). -/
def Obligations.LateConfirmationsAreTaken : Prop :=
  ∀ (st : Station) (s : State) (f : Frame) (ramp n : Nat) (l : Lane) (c : CheckRecord),
    s.sound = true → rampOf st = some ramp → s.planMode = true → s.lanes.get n = some l →
    l.check = some c → bookingOk c.booking = true →
    let account : Account :=
      { s.account with
        tc := s.account.tc + c.delta
        pPlus := s.account.pPlus - max c.delta 0
        pMinus := s.account.pMinus - min c.delta 0 }
    let above : BreachItem :=
      { envelope := account.tc + account.pPlus, limit := s.upperLimit,
        beyond := account.tc + account.pPlus - s.upperLimit }
    let below : BreachItem :=
      { envelope := account.tc + account.pMinus, limit := s.lowerLimit,
        beyond := s.lowerLimit - (account.tc + account.pMinus) }
    (∀ u, c.content = .load u → s.Offers st 0x31 (u8 n ++ encBooking c.booking) f →
      (l.profile.length < c.offset + u.length →
        OnlyAnswers (.lashed st) s st f
          (.refuse .conflict (u8 7 ++ u16 c.offset ++ u16 u.length ++ u16 l.profile.length))) ∧
      (c.offset + u.length ≤ l.profile.length → l.clearance < u.height →
        OnlyAnswers (.lashed st) s st f
          (.refuse .conflict (u8 8 ++ u16 u.height ++ u16 l.clearance))) ∧
      (c.offset + u.length ≤ l.profile.length → u.height ≤ l.clearance →
        let stowed : State :=
          { s with
            lanes := s.lanes.modify n fun q =>
              { q with
                entries := q.entries ++
                  [{ booking := c.booking, unit := u, offset := c.offset, state := .stowed }]
                check := none
                mass := q.mass + u.mass }
            account := account
            zones := onZone s.zones c.zone fun z =>
              { z with pendingLoad := z.pendingLoad - u.mass, confirmed := z.confirmed + u.mass }
            register := s.register.filter fun q => decide (q.booking ≠ c.booking) }
        let fits := decide (0 < c.delta → s.account.tc + s.account.pPlus ≤ s.upperLimit) &&
          decide (c.delta < 0 → s.lowerLimit ≤ s.account.tc + s.account.pMinus)
        AnswersWith (.lashed st) s st f
          (.ack (u8 n ++ encBooking c.booking ++ u8 (l.entries.length + 1) ++ u16 c.offset ++ u8 2 ++
            if fits then [0] else [1, 14]))
          (.unitStowed c.booking n (l.entries.length + 1) c.offset c.ramp u.mass c.delta true account.tc ::
            if fits then [] else [.limitBreach false n c.booking [if 0 < c.delta then above else below]])
          (stowed.resolved n).2 (stowed.resolved n).1 true)) ∧
    (∀ e, c.content = .discharge → l.entries.getLast? = some e →
      s.Offers st 0x35 (encBooking c.booking) f →
      let gone : State :=
        { s with
          lanes := s.lanes.modify n fun q =>
            { q with entries := q.entries.dropLast, check := none, mass := q.mass - e.unit.mass }
          poolInUse := s.poolInUse - 1
          account := account
          zones := onZone s.zones c.zone fun z => { z with confirmed := z.confirmed - e.unit.mass } }
      let items := (if s.upperLimit < account.tc + account.pPlus then [above] else []) ++
        if account.tc + account.pMinus < s.lowerLimit then [below] else []
      AnswersWith (.offloaded st) s st f (.ack (u8 n ++ encBooking c.booking ++ u8 2))
        (.unitDischarged c.booking n c.ramp e.unit.mass c.delta true account.tc ::
          if items.isEmpty then [] else [.limitBreach true n c.booking items])
        (gone.resolved n).2 (gone.resolved n).1 true)

/-- R104 to R106, R118: VERIFY drops a check record and answers NOT_THERE or STILL_ABOARD; a reservation
whose seconds are spent lapses into a check record with its delta kept, and EXPIRED tells its ramp. -/
def Obligations.VerifiesAndExpiries : Prop :=
  (∀ (st : Station) (s : State) (f : Frame) (n : Nat) (l : Lane), s.Offers st 0x42 (u8 n) f →
      s.tablesOk = true → s.planMode = true → laneNumberOk n = true → s.lanes.get n = some l →
      st = .loading ∨ (isRampStation st = true ∧ n ∈ s.reachOf st) →
      (l.check = none → OnlyAnswers (.verify st) s st f (.refuse .notCheck [])) ∧
      ∀ c, l.check = some c →
        let dropped : State :=
          { s with
            lanes := s.lanes.modify n fun q => { q with check := none }
            account :=
              { s.account with
                pPlus := s.account.pPlus - max c.delta 0
                pMinus := s.account.pMinus - min c.delta 0 } }
        (∀ u, c.content = .load u →
          let empty : State :=
            { dropped with
              poolInUse := s.poolInUse - 1
              zones := onZone s.zones c.zone fun z => { z with pendingLoad := z.pendingLoad - u.mass }
              register := s.register.map fun q =>
                if q.booking = c.booking then { q with state := .announced } else q }
          AnswersWith (.verify st) s st f (.ack (u8 n ++ u8 1 ++ encBooking c.booking)) []
            (empty.resolved n).2 (empty.resolved n).1 true) ∧
        (c.content = .discharge →
          AnswersWith (.verify st) s st f (.ack (u8 n ++ u8 2 ++ encBooking c.booking)) []
            (dropped.resolved n).2 (dropped.resolved n).1 true)) ∧
    ∀ (s : State) (r : Reservation) (l : Lane) (e : Entry), s.sound = true → s.working = true →
      s.reservationOn r.lane = some r → r.seconds = 0 → s.lanes.get r.lane = some l →
      l.entries.getLast? = some e →
      let released : State :=
        { s with
          movements := s.movements.eraseP fun q => decide (q.lane = r.lane)
          ramps := s.ramps.modify r.ramp fun q => { q with count := q.count - 1 } }
      let record (content : CheckContent) : CheckRecord :=
        { booking := r.booking, ramp := r.ramp, delta := r.delta, zone := r.zone, offset := r.offset,
          content := content }
      (r.kind = .load →
        HappensWith (.loadExpiry r.lane) s [.expired r.ramp .load r.lane r.booking r.offset r.seq] []
          { released with
            lanes := s.lanes.modify r.lane fun q =>
              { q with entries := q.entries.dropLast, check := some (record (.load e.unit)) }
            register := s.register.map fun q =>
              if q.booking = r.booking then { q with state := .check } else q }) ∧
      (r.kind = .discharge →
        HappensWith (.dischargeExpiry r.lane) s
          [.expired r.ramp .discharge r.lane r.booking r.offset r.seq] []
          { released with
            lanes := s.lanes.modify r.lane fun q =>
              { q with entries := setLast q.entries .stowed, check := some (record .discharge) } })

/-! Plan clock -/

/-- R134. -/
def Obligations.CutoffFollowsItsRule : Prop :=
  ∀ (st : Station) (s : State) (f : Frame) (v : Nat), v ≤ 4294967295 → s.Offers st 0x0D (u32 v) f →
    s.tablesOk = true →
    (st ≠ .loading → OnlyAnswers (.cutoff st) s st f (.refuse .authority [])) ∧
    (st = .loading → s.mode = .profile → OnlyAnswers (.cutoff st) s st f (.refuse .mode [])) ∧
    (st = .loading → s.planMode = true →
      (v = 0 →
        exec (.cutoff st) s =
          .next (({ s.popMailbox st with
              clock := { now := s.clock.now, cutoff := none, reached := false } } : State).concluded st
            (replyFrame f (.ack (u32 0 ++ u32 s.clock.now ++ u8 2))))) ∧
      (0 < v → v ≤ s.clock.now →
        OnlyAnswers (.cutoff st) s st f (.refuse .timePast (u32 s.clock.now))) ∧
      (s.clock.now < v →
        exec (.cutoff st) s =
          .next (({ s.popMailbox st with
              clock := { now := s.clock.now, cutoff := some v, reached := false } } : State).concluded st
            (replyFrame f (.ack (u32 v ++ u32 s.clock.now ++ u8 2))))))

/-- R103, R132, R133, R135: CLOCK sets the plan clock and CLOCK_ADVANCE raises it by a second up to its last
value, in RUN and RECOVERY; where the clock comes to a cut-off time that is set and not reached, the
condition is set, CUTOFF_REACHED is sent, and every waiting unit is shut out in turn. TIMEOUT clamps its
seconds to 60 to 900. -/
def Obligations.ClockRunsToTheCutoff : Prop :=
  (∀ (s : State), s.tablesOk = true → s.working = true → s.planMode = true →
      let shut (now cutoff : Nat) (q : State) : State :=
        { q with
          clock := { now := now, cutoff := some cutoff, reached := true }
          waiting := []
          register := s.register.map fun r =>
            if s.waiting.any fun w => decide (w.booking = r.booking) then { r with state := .excluded }
            else r }
      let notices (now cutoff : Nat) : List Notice :=
        .cutoffReached cutoff now s.waiting.length :: s.waiting.flatMap fun w =>
          [.shutOut w.ramp w.booking cutoff, .unitExcluded true w.booking w.ramp w.reasons]
      let reaches (now : Nat) : Prop :=
        ∃ c, s.clock.cutoff = some c ∧ s.clock.reached = false ∧ c ≤ now
      (∀ (f : Frame) (v : Nat), v ≤ 4294967295 → s.Offers .loading 0x0E (u32 v) f →
        (¬ reaches v →
          exec (.clock .loading) s =
            .next (({ s.popMailbox .loading with clock := { s.clock with now := v } } :
              State).concluded .loading
                (replyFrame f (.ack (u32 v ++ u32 (s.clock.cutoff.getD 0) ++
                  u8 (flagCode s.clock.reached)))))) ∧
        (∀ c, s.clock.cutoff = some c → s.clock.reached = false → c ≤ v →
          exec (.clock .loading) s =
            .next ((shut v c (s.popMailbox .loading)).concludedWith .loading
              (replyFrame f (.ack (u32 v ++ u32 c ++ u8 1))) (notices v c)))) ∧
      (let now := min 4294967295 (s.clock.now + 1);
        (¬ reaches now →
          exec .clockAdvance s =
            .next (({ s with clock := { s.clock with now := now } } : State).endedWith [])) ∧
        (∀ c, s.clock.cutoff = some c → s.clock.reached = false → c ≤ now →
          exec .clockAdvance s = .next ((shut now c s).endedWith (notices now c))))) ∧
    ∀ (s : State) (f : Frame) (v : Int), -32768 ≤ v → v < 32768 → s.tablesOk = true →
      s.Offers .loading 0x0C (i16 v) f →
      let seconds := (clampInt 60 900 v).toNat
      exec (.timeout .loading) s =
        .next (({ s.popMailbox .loading with timeout := seconds } : State).concluded .loading
          (replyFrame f (.ack (u16 seconds))))

/-! Deck sections -/

/-- R140 to R143: MOVE of a section at rest starts the move, or waits while an affected lane carries a pending
movement; a section already there, busy, in fault, loaded or too low over a unit beneath is answered so.
CANCEL_MOVE ends the wait. When the last pending movement of its lanes is resolved, a waiting section moves,
or enters the fault it holds; a lane without a section resolves nothing more. A section number outside 1 to 6
is refused FIELD naming field 1, a position that is none of the three naming field 2. How the contents of the
replies are laid out is notes/assumptions/10.md's. That a timer stopped by a fault stands at 0 is the model's
choice (notes/assumptions/35.md). -/
def Obligations.SectionsMoveWaitAndCancel : Prop :=
  (∀ (s : State) (f : Frame) (n : Nat) (c : Sect) (p : Position),
      s.Offers .loading 0x13 (u8 n ++ u8 (positionCode (some p))) f → s.tablesOk = true →
      s.planMode = true → sectionNumberOk n = true → s.fittedSection n = some c →
      (c.holds = true → c.position = some p →
        OnlyAnswers (.move .loading) s .loading f (.ack (encSect c))) ∧
      (c.state = .moving ∨ (c.state = .movePending ∧ c.position ≠ some p) →
        OnlyAnswers (.move .loading) s .loading f (.refuse .busy (encSect c))) ∧
      (c.state = .fault →
        OnlyAnswers (.move .loading) s .loading f (.refuse .sectionFault (encSect c))) ∧
      (c.state = .atPosition → c.position ≠ some p →
        (∀ x, s.loadedLane n = some x →
          OnlyAnswers (.move .loading) s .loading f (.refuse .loaded (u8 x.1 ++ u8 x.2 ++ encSect c))) ∧
        (s.loadedLane n = none → ∀ u, tallest (s.unitsBeneath n) = some u →
          c.clearances.beneath p < u.height →
          OnlyAnswers (.move .loading) s .loading f
            (.refuse .clearance
              (u16 (c.clearances.beneath p) ++ u16 u.height ++ u8 u.lane ++ encBooking u.booking ++
                encSect c))) ∧
        (s.loadedLane n = none → (∀ u ∈ s.unitsBeneath n, u.height ≤ c.clearances.beneath p) →
          (s.pendingLanes n = [] →
            let moving : Sect :=
              { c with
                position := none, origin := c.position, target := some p, state := .moving,
                timer := 240 }
            AnswersWith (.move .loading) s .loading f (.ack (encSect moving)) []
              [.sectionState n .atPosition .moving none (some p) c.faultHeld .move]
              { s with sections := s.sections.modify n fun _ => moving } false) ∧
          (s.pendingLanes n ≠ [] →
            let waits : Sect := { c with state := .movePending, target := some p }
            AnswersWith (.move .loading) s .loading f
              (.ack (encSect waits ++ encNums (s.pendingLanes n))) []
              [.sectionState n .atPosition .movePending c.position (some p) c.faultHeld .move]
              { s with sections := s.sections.modify n fun _ => waits } false)))) ∧
    (∀ (s : State) (f : Frame) (n x : Nat) (c : Sect), s.Offers .loading 0x13 (u8 n ++ u8 x) f →
      s.tablesOk = true → s.planMode = true → sectionNumberOk n = true → x = 0 ∨ 3 < x → x < 256 →
      s.fittedSection n = some c →
      OnlyAnswers (.move .loading) s .loading f (.refuseField 2 0 (encSect c))) ∧
    (∀ (s : State) (f : Frame) (n x : Nat), s.tablesOk = true → s.planMode = true → n < 256 →
      sectionNumberOk n = false →
      (s.Offers .loading 0x13 (u8 n ++ u8 x) f →
        OnlyAnswers (.move .loading) s .loading f (.refuseField 1 0 [])) ∧
      (s.Offers .loading 0x14 (u8 n) f →
        OnlyAnswers (.cancelMove .loading) s .loading f (.refuseField 1 0 []))) ∧
    (∀ (s : State) (f : Frame) (n : Nat) (c : Sect), s.Offers .loading 0x14 (u8 n) f →
      s.tablesOk = true → s.planMode = true → sectionNumberOk n = true → s.fittedSection n = some c →
      (c.state ≠ .movePending →
        OnlyAnswers (.cancelMove .loading) s .loading f (.refuse .noMovement (encSectBrief c))) ∧
      (c.state = .movePending → c.faultHeld = true →
        OnlyAnswers (.cancelMove .loading) s .loading f (.refuse .sectionFault (encSectBrief c))) ∧
      (c.state = .movePending → c.faultHeld = false →
        let rest : Sect := { c with state := .atPosition, target := none }
        AnswersWith (.cancelMove .loading) s .loading f (.ack (encSectBrief rest)) []
          [.sectionState n .movePending .atPosition c.position none false .cancel]
          { s with sections := s.sections.modify n fun _ => rest } true)) ∧
    (∀ (s : State) (n : Nat),
      (∀ l k, s.lanes.get n = some l → l.profile.relation.section? = some k → s.sections.get k = none) →
      s.resolved n = (s, [])) ∧
    ∀ (s : State) (n k : Nat) (l : Lane) (c : Sect), s.lanes.get n = some l →
      l.profile.relation.section? = some k → s.sections.get k = some c →
      (c.state ≠ .movePending ∨ s.pendingLanes k ≠ [] → s.resolved n = (s, [])) ∧
      (c.state = .movePending → s.pendingLanes k = [] → c.faultHeld = false →
        s.resolved n =
          ({ s with
              sections := s.sections.modify k fun q =>
                { q with
                  position := none, origin := q.position, target := c.target, state := .moving,
                  timer := 240 } },
            [.sectionState k .movePending .moving none c.target false .waitOver])) ∧
      (∀ cause, c.state = .movePending → s.pendingLanes k = [] → c.faultHeld = true →
        c.cause = some cause →
        s.resolved n =
          ({ s with
              sections := s.sections.modify k fun q =>
                { q with
                  position := none, origin := none, target := none, state := .fault,
                  faultHeld := false, cause := some cause, timer := 0 } },
            [.sectionState k .movePending .fault none none false (.fault cause)]))

/-- R138, R144 to R146: in RUN and RECOVERY a moving section arrives when its inputs show the target, and
faults at another position than target or origin or with several inputs; a section that holds a position
faults when its inputs show it no longer, or holds the fault while an affected lane carries a pending
movement; in FAULT, and elsewhere, the levels alone are kept (notes/assumptions/25.md). That a write of the
levels already shown is no change of inputs, and so no event, is the model's reading of R138
(notes/assumptions/18.md). That a timer stopped by an arrival or a fault stands at 0 is the model's choice
(notes/assumptions/35.md). -/
def Obligations.SectionsFollowTheirInputs : Prop :=
  ∀ (s : State) (n : Nat) (levels : Inputs), sectionNumberOk n = true → s.tablesOk = true →
    let pins := s.setInputs n levels
    pins.sectionInputs n = levels ∧
    (s.working = false ∨ s.planMode = false ∨ s.sectionInputs n = levels ∨ s.fittedSection n = none →
      exec (.sectionInputChange n levels) s = .next pins) ∧
    (s.working = true → s.planMode = true → s.sectionInputs n ≠ levels →
      ∀ c, s.fittedSection n = some c →
      let faulted (cause : FaultCause) : Prop :=
        HappensWith (.sectionInputChange n levels) s []
          [.sectionState n c.state .fault none none false (.fault cause)]
          { pins with sections := s.sections.modify n fun q => q.faulted cause }
      let nothing : Prop := exec (.sectionInputChange n levels) s = .next (pins.endedWith [])
      (c.state = .fault → nothing) ∧
      (c.state = .moving →
        (inputCount levels = 0 → nothing) ∧
        (2 ≤ inputCount levels → faulted .multipleInputs) ∧
        ∀ p, shownPosition levels = some p →
          (c.target ≠ some p → c.origin = some p → nothing) ∧
          (c.target ≠ some p → c.origin ≠ some p → faulted .wrongInput) ∧
          (c.target = some p →
            HappensWith (.sectionInputChange n levels) s []
              [.sectionState n .moving .atPosition (some p) none c.faultHeld .arrival]
                { pins with
                    sections := s.sections.modify n fun q =>
                      { q with
                        position := some p, origin := none, target := none, state := .atPosition,
                        timer := 0 }
                    lanes := s.lanes.mapAll fun l =>
                      if l.isOn n then { l with clearance := c.clearances.above p }
                      else if l.isBeneath n then { l with clearance := c.clearances.beneath p }
                      else l })) ∧
      (c.holds = true →
        (c.faultHeld = true → nothing) ∧
        (c.faultHeld = false → (∃ p, shownPosition levels = some p ∧ c.position = some p) → nothing) ∧
        (c.faultHeld = false → (∀ p, shownPosition levels = some p → c.position ≠ some p) →
          let cause : FaultCause :=
            if inputCount levels = 0 then .inputLost
            else if inputCount levels = 1 then .inputChanged else .multipleInputs
          (s.pendingLanes n = [] → faulted cause) ∧
          (s.pendingLanes n ≠ [] →
            HappensWith (.sectionInputChange n levels) s []
              [.sectionState n c.state .movePending c.position none true (.fault cause)]
              { pins with sections := s.sections.modify n fun q => q.holding cause }))))

/-- R144, R147: a move whose timer has run out faults; CLEAR_FAULT brings a section in FAULT to the position
its inputs show, is refused NO_POSITION where they show none and LOADED at RAISED with units on the section,
names the lanes it leaves too low, and is BUSY while the section moves or holds a fault; a section number
outside 1 to 6 is refused FIELD naming field 1. That the ACK carries the list alone, in the order of
`State.overHeight`, is the model's choice (notes/assumptions/10.md), and so is an ACK of more than 32 such
lanes, longer than a payload (notes/assumptions/20.md). That a stopped timer stands at 0 is the model's choice
(notes/assumptions/35.md). -/
def Obligations.FaultsAreRaisedAndCleared : Prop :=
  (∀ (s : State) (n : Nat) (c : Sect), s.tablesOk = true → s.fittedSection n = some c →
      s.working = true → c.state = .moving → c.timer = 0 →
      HappensWith (.moveTimerExpiry n) s []
        [.sectionState n .moving .fault none none false (.fault .timeout)]
        { s with sections := s.sections.modify n fun q => q.faulted .timeout }) ∧
    (∀ (s : State) (f : Frame) (n : Nat), s.Offers .loading 0x15 (u8 n) f → s.tablesOk = true →
      s.planMode = true → n < 256 → sectionNumberOk n = false →
      OnlyAnswers (.clearFault .loading) s .loading f (.refuseField 1 0 [])) ∧
    ∀ (s : State) (f : Frame) (n : Nat) (c : Sect), s.Offers .loading 0x15 (u8 n) f →
      s.tablesOk = true → s.planMode = true → sectionNumberOk n = true → s.fittedSection n = some c →
      (c.state = .moving → OnlyAnswers (.clearFault .loading) s .loading f (.refuse .busy [])) ∧
      (c.state = .movePending → c.faultHeld = true →
        OnlyAnswers (.clearFault .loading) s .loading f (.refuse .busy [])) ∧
      (c.state = .movePending → c.faultHeld = false →
        OnlyAnswers (.clearFault .loading) s .loading f (.ack [])) ∧
      (c.state = .atPosition → OnlyAnswers (.clearFault .loading) s .loading f (.ack [])) ∧
      (c.state = .fault →
        (shownPosition (s.sectionInputs n) = none →
          OnlyAnswers (.clearFault .loading) s .loading f
            (.refuse .noPosition (u8 (inputCount (s.sectionInputs n))))) ∧
        ∀ p, shownPosition (s.sectionInputs n) = some p →
          (∀ x, p = .raised → s.loadedLane n = some x →
            OnlyAnswers (.clearFault .loading) s .loading f (.refuse .loaded (u8 x.1 ++ u8 x.2))) ∧
          (p ≠ .raised ∨ s.loadedLane n = none →
            let low := s.overHeight n c p
            AnswersWith (.clearFault .loading) s .loading f
              (.ack (u8 low.length ++ low.flatMap fun q => u8 q.1 ++ u16 q.2)) []
              [.sectionState n .fault .atPosition (some p) none c.faultHeld .clearFault]
                { s with
                    sections := s.sections.modify n fun q =>
                      { q with
                        position := some p, origin := none, target := none, state := .atPosition,
                        timer := 0, cause := none }
                    lanes := s.lanes.mapAll fun l =>
                      if l.isOn n then { l with clearance := c.clearances.above p }
                      else if l.isBeneath n then { l with clearance := c.clearances.beneath p }
                      else l } false))

/-! Modes and starts -/

/-- R148, R165, R167, R168: RESUME brings RECOVERY into RUN and does nothing in RUN; the key and the reset
input are followed; POWER_FAIL stops moving sections, discards samples and tank report, sends nothing and
leaves all else as it is; POWER_RESTORED resumes the mode held: the line-ready inputs are read again, and a
station whose input has fallen becomes ABSENT (R150, R155); a section that holds a position its inputs do not
show takes the sensor fault (R148); MODE stands first, then the presences, the lanes, the sections whose state
or held fault differs from what it was, and the pass a return to RUN brings (the order behind MODE and the
report of a held fault are the model's choice, notes/assumptions/15.md, 16.md); a loss of supply keeps the
retained image alone. What the emptied stores then hold is notes/assumptions/6.md's, whether the loss cuts an
update off 30.md's, that pins are followed in POWER_DOWN, in reset and without supply 25.md's, and that a
frame partly received stays in its receiver through POWER_DOWN 22.md's. That a timer stopped by a fault stands
at 0 is 35.md's. -/
def Obligations.ModesChangeAsCommanded : Prop :=
  (∀ (s : State) (f : Frame), s.Offers .loading 0x0F [] f → s.tablesOk = true →
      (s.mode = .run → OnlyAnswers (.resume .loading) s .loading f (.ack [])) ∧
      (s.mode = .recovery →
        AnswersWith (.resume .loading) s .loading f (.ack []) [.mode .run .resume] []
          { s with control := { s.control with work := .run } } false)) ∧
    (∀ (s : State) (locked : Bool),
      exec (.planLockKeyChange locked) s =
        .next { s with control := { s.control with keyLocked := locked } }) ∧
    (∀ s : State,
      exec .resetAsserted s = .next { s with control := { s.control with resetInput := true } }) ∧
    (∀ s : State, s.working = false →
      exec .powerFail s = .next { s with control := { s.control with powerFailInput := true } }) ∧
    (∀ s : State, s.working = true →
      let down : State :=
        { s with
          control :=
            { s.control with
              down := true, powerFailInput := true, statesBefore := s.sections.mapAll (·.state) }
          sections := s.sections.mapAll fun c =>
            if c.state = .moving then
              { c with
                position := none, origin := none, target := none, state := .fault, faultHeld := false,
                cause := some .powerDown, timer := 0 }
            else c
          monitor :=
            { s.monitor with
              tank := none, history := [], rail := 0, qualified := 0, divergence := 0 } }
      down.mode = .powerDown ∧
        exec .powerFail s = .next { down with store := { image := down.image, intact := true } }) ∧
    (∀ s : State, s.awake = false ∨ s.control.down = false →
      exec .powerRestored s = .next { s with control := { s.control with powerFailInput := false } }) ∧
    (∀ s : State, s.awake = true → s.control.down = true → s.tablesOk = true →
      let fallen (st : Station) : Bool := (s.links.get st).ready && !(s.links.get st).readyInput
      let up : State :=
        { s with
          control := { s.control with down := false, powerFailInput := false, statesBefore := [] }
          stations := PerStation.of fun st =>
            if fallen st then { s.stations.get st with present := false, quiet := none }
            else s.stations.get st
          links := PerStation.of fun st => { s.links.get st with ready := (s.links.get st).readyInput } }
      let after (n : Nat) (c : Sect) : Sect :=
        if s.isSealed = true ∧ up.planMode = true then s.resumedSection n c else c
      let before (n : Nat) (c : Sect) : SectState := (s.control.statesBefore.get n).getD c.state
      EndsFrom .powerRestored s
        { up with sections := s.sections.map fun p => (p.1, after p.1 p.2) }
        (.mode up.mode .powerRestored :: allStations.flatMap fun st =>
          if fallen st && (s.stations.get st).present then
            .stationPresence st false .lineReady :: if st = .loading then up.overshoot true else []
          else [])
        (s.sections.flatMap fun p =>
          let c := after p.1 p.2
          if before p.1 p.2 ≠ c.state ∨ p.2.faultHeld ≠ c.faultHeld then
            [.sectionState p.1 (before p.1 p.2) c.state c.position c.target c.faultHeld
              (.fault (c.cause.getD .powerDown))]
          else [])) ∧
    ∀ (s : State) (cutOff : Bool),
      let lost : State :=
        { State.blank with
          links := PerStation.of fun st => Link.atStart (s.links.get st).readyInput
          inputs := s.inputs
          control :=
            { State.blank.control with
              supplied := false, resetInput := s.control.resetInput,
              powerFailInput := s.control.powerFailInput, keyLocked := s.control.keyLocked }
          store := { image := s.store.image, intact := s.store.intact && !cutOff }
          pending := s.pending }
      exec (.supplyLoss cutOff) s = .next lost ∧ lost.working = false ∧ lost.register = [] ∧
        lost.movements = [] ∧ lost.waiting = [] ∧ lost.lanes = [] ∧
        ∀ st, (lost.links.get st).mailbox = [] ∧ (lost.links.get st).queue = [] ∧
          (lost.links.get st).slots = []

/-- R54, R78, R103, R155, R160, R165, R166: a start empties the volatile stores, reads line-ready inputs,
straps and key, and sends MODE alone; with the strap WARM and a valid image the retained contents return,
otherwise every store takes its cold-start value; a power-fail input found asserted leads into POWER_DOWN
(notes/assumptions/5.md for the two operands and for a reset input still asserted, 22.md for the receivers).
TIME_BASE_SECOND counts the reservations down in RUN, the move timers in RUN and RECOVERY, and the quiet
timers and the tank report's age up (R65, R104, R144); that it acts on no limit it reaches is the model's
choice (notes/assumptions/8.md). -/
def Obligations.StartsAndSecondsPass : Prop :=
  (∀ (s : State) (strap : StartStrap) (rates : BitVec 3), s.tablesOk = true →
      ∃ t, exec (.start strap rates) s = .next t ∧
        t.control.supplied = true ∧ t.control.resetInput = false ∧
        t.control.keyLocked = s.control.keyLocked ∧ t.control.rateStraps = rates ∧
        t.control.down = s.control.powerFailInput ∧ t.inputs = s.inputs ∧ t.pending = s.pending ∧
        t.movements = [] ∧ t.waiting = [] ∧ t.seqNext = 1 ∧ t.account.revision = 0 ∧
        t.monitor.tank = none ∧ t.monitor.history = [] ∧ t.monitor.rail = 0 ∧
        t.monitor.qualified = 0 ∧ t.monitor.divergence = 0 ∧
        (∀ st, t.stations.get st =
          { present := false, quiet := none, subscribed := defaultSubscriptions st }) ∧
        t.store = { image := t.image, intact := true } ∧
        (strap = .cold ∨ s.store.intact = false →
          t.control.work = .profile ∧ t.image = Image.cold ∧
          let cause : ModeCause := if strap = .cold then .cold else .coldAfterLoss
          ∀ st, t.links.get st =
            { Link.atStart (s.links.get st).readyInput with
              queue := [noticeFrame .mode 1 (Notice.mode .profile cause).content] }) ∧
        (strap = .warm → s.store.intact = true →
          let i := s.store.image
          t.control.work = (if i.isSealed then .recovery else .profile) ∧ t.isSealed = i.isSealed ∧
          t.gap = i.gap ∧ t.segregation = i.segregation ∧ t.timeout = i.timeout ∧ t.clock = i.clock ∧
          t.ramps = i.ramps ∧ t.account.kp = i.kp ∧ t.account.ks = i.ks ∧ t.account.h = i.h ∧
          t.monitor.kh = i.kh ∧ t.monitor.offset = i.offset ∧ t.monitor.tolerance = i.tolerance ∧
          t.monitor.stop = i.stop ∧
          t.register = i.register.map (fun r =>
            if r.state = .reserved then { r with state := .check }
            else if r.state = .waiting then { r with state := .announced } else r) ∧
          ∀ st, t.links.get st =
            { Link.atStart (s.links.get st).readyInput with
              queue := [noticeFrame .mode 1
                (Notice.mode (if i.isSealed then .recovery else .profile) .warm).content] })) ∧
    ∀ s : State, s.working = true →
      exec .timeBaseSecond s =
        .next
          { s with
            stations := PerStation.of fun st =>
              { s.stations.get st with
                quiet := (s.stations.get st).quiet.map fun q => min 10 (q + 1) }
            monitor :=
              { s.monitor with
                tank := s.monitor.tank.map fun r => { r with age := min 255 (r.age + 1) } }
            movements :=
              if s.mode = .run then
                s.movements.map fun r => { r with seconds := r.seconds - 1 }
              else s.movements
            sections :=
              if s.planMode = true then
                s.sections.mapAll fun c =>
                  if c.state = .moving then { c with timer := c.timer - 1 } else c
              else s.sections }

/-! Links, notices, reads and outputs -/

/-- R151, R153, R155: on a link that works, a valid frame refreshes its station's presence and joins the
mailbox while a place is free, bytes outside a frame, a frame whose length byte exceeds 100 and bytes that are
no valid frame for the link change nothing, a frame sent frees
its place in the queue, and a gap within a frame restarts the hunt; on a link that does not work the bytes
are lost. FRAME_RECEIVED as a burst of bytes is notes/assumptions/7.md's, INTERBYTE_TIMEOUT and BREAK_END on a
link that does not work 22.md's. -/
def Obligations.FramesAreReceivedAndSent : Prop :=
  (∀ (st : Station) (s : State) (f : Frame), s.linkLive st = true → s.tablesOk = true →
      (s.links.get st).receiver = .hunting → f.payload.length ≤ 100 →
      let heard : State :=
        { s with
          stations := s.stations.set st { s.stations.get st with present := true, quiet := some 0 }
          links := s.links.set st
            { s.links.get st with
              mailbox := if (s.links.get st).mailbox.length < 8 then (s.links.get st).mailbox ++ [f]
                else (s.links.get st).mailbox } }
      ((s.stations.get st).present = true →
        exec (.frameReceived st (wireBytes st f)) s = .next (heard.endedWith [])) ∧
      ((s.stations.get st).present = false → st ≠ .loading →
        exec (.frameReceived st (wireBytes st f)) s =
          .next (heard.endedWith [.stationPresence st true .frame])) ∧
      ((s.stations.get st).present = false → st = .loading →
        let locks := s.mode = .recovery ∧ s.control.keyLocked = true
        EndsFrom (.frameReceived st (wireBytes st f)) s
          { heard with control := if locks then { s.control with work := .run } else s.control }
          (.stationPresence st true .frame :: heard.overshoot true ++
            if locks then [.mode .run .planLock] else [])
          [])) ∧
    (∀ (st : Station) (s : State) (bytes : List Byte),
      (s.links.get st).receiver = .hunting → gather .hunting bytes = (.hunting, [bytes]) →
      validFrame st bytes = none → exec (.frameReceived st bytes) s = .next s) ∧
    (∀ (st : Station) (s : State) (noise : List Byte), (s.links.get st).receiver = .hunting →
      (∀ b ∈ noise, b ≠ startByte) →
      exec (.frameReceived st noise) s = .next s ∧
        ∀ b : Byte, 100 < b.toNat →
          exec (.frameReceived st (noise ++ [startByte, b])) s = .next s) ∧
    (∀ (st : Station) (s : State) (bytes : List Byte), s.linkLive st = false →
      exec (.frameReceived st bytes) s = .next s) ∧
    (∀ (st : Station) (s : State) (got : List Byte), s.awake = true →
      (s.links.get st).receiver = .gathering got →
      exec (.interbyteTimeout st) s =
        .next (s.setLink st { s.links.get st with receiver := .hunting })) ∧
    (∀ (st : Station) (s : State), s.awake = true → (s.links.get st).receiver = .inBreak →
      exec (.breakEnd st) s =
        .next (s.setLink st { s.links.get st with receiver := .hunting })) ∧
    ∀ (st : Station) (s : State) (g : Frame) (rest : List Frame), s.linkLive st = true →
      s.tablesOk = true → (s.links.get st).queue = g :: rest →
      exec (.frameSent st) s =
        .next ((s.setLink st
          { s.links.get st with queue := rest, line := wireBytes st g }).endedWith [])

/-- R150, R154, R155: a break and LINK_RESET empty a link and make its station ABSENT, a line that is no
longer ready and the quiet limit make it ABSENT, each with STATION_PRESENCE where it was PRESENT; the loading
computer's absence ends the allowance H and may bring BAND_EXCEEDED (R59, R61). That LINK_RESET leaves a break
in progress (notes/assumptions/22.md), that the level is stored in POWER_DOWN, in reset and without supply
(25.md) and that a level repeated is no event (3.md) are the model's choice. -/
def Obligations.LinksAreResetAndWatched : Prop :=
  (∀ (st : Station) (s : State), s.tablesOk = true → s.working = true →
      let absent : State :=
        { s with
          stations := s.stations.set st { s.stations.get st with present := false, quiet := none } }
      let notices (cause : PresenceCause) : List Notice :=
        if (s.stations.get st).present then
          .stationPresence st false cause :: if st = .loading then absent.overshoot true else []
        else []
      ((s.links.get st).ready = true → (s.links.get st).receiver ≠ .inBreak →
        EndsFrom (.lineBreak st) s
          (absent.setLink st
            { s.links.get st with mailbox := [], queue := [], slots := [], receiver := .inBreak })
          (notices .reset) []) ∧
      ((s.links.get st).ready = true →
        EndsFrom (.lineReadyChange st false) s
          (absent.setLink st { s.links.get st with ready := false, readyInput := false })
          (notices .lineReady) []) ∧
      ((s.links.get st).ready = false →
        exec (.lineReadyChange st true) s =
          .next ((s.setLink st
            { s.links.get st with ready := true, readyInput := true }).endedWith [])) ∧
      (∀ q, (s.stations.get st).present = true → (s.stations.get st).quiet = some q → 10 ≤ q →
        EndsFrom (.quietLimit st) s absent (notices .quiet) [])) ∧
    (∀ (st : Station) (s : State) (asserted : Bool),
      s.working = false ∨ (s.links.get st).ready = asserted →
      exec (.lineReadyChange st asserted) s =
        .next (s.setLink st { s.links.get st with readyInput := asserted })) ∧
    ∀ (s : State) (f : Frame) (n : Nat), s.Offers .loading 0x10 (u8 n) f → s.tablesOk = true → n < 256 →
      (n < 2 ∨ 6 < n → OnlyAnswers (.linkReset .loading) s .loading f (.refuseField 1 0 [])) ∧
      ∀ st, stationOf n = some st → st ≠ .loading →
        let l := s.links.get st
        let emptied : State :=
          { s.popMailbox .loading with
            links := (s.popMailbox .loading).links.set st
              { l with
                mailbox := [], queue := [], slots := []
                receiver := if l.receiver = .inBreak then .inBreak else .hunting }
            stations := s.stations.set st { s.stations.get st with present := false, quiet := none } }
        exec (.linkReset .loading) s =
          .next (emptied.concludedWith .loading
            (replyFrame f (.ack (u8 n ++ u8 (if (s.stations.get st).present then 1 else 2))))
            (if (s.stations.get st).present then [.stationPresence st false .reset] else []))

/-- A notice joins the queue while a place is free and no slot holds; otherwise it takes the slot of its
kind, or replaces the content the slot holds and raises its merge count up to 255, the slot keeping its place
(R161). A notice is placed on exactly the links it is addressed to (R159), and behind each placement, as at
an event's end, a link whose mailbox is empty hands its oldest slots on while places are free (R162; that the
release waits for the first placement behind a request taken is notes/assumptions/34.md's). -/
def Obligations.NoticesArePlacedAndReleased : Prop :=
  (∀ (l : Link) (k : NoticeKind) (content : List Byte),
      (l.queue.length < 16 → l.slots = [] →
        l.place k content = { l with queue := l.queue ++ [noticeFrame k 1 content] }) ∧
      (16 ≤ l.queue.length ∨ l.slots ≠ [] →
        ((∀ x ∈ l.slots, x.kind ≠ k) →
          l.place k content =
            { l with slots := l.slots ++ [{ kind := k, content := content, merge := 1 }] }) ∧
        ∀ earlier x later, l.slots = earlier ++ x :: later → x.kind = k →
          (∀ y ∈ earlier ++ later, y.kind ≠ k) →
          l.place k content =
            { l with slots := earlier ++
              { kind := k, content := content, merge := min 255 (x.merge + 1) } :: later })) ∧
    (∀ (s : State) (n : Notice) (st : Station),
      (s.send n).links.get st =
        if (match n.directedTo with
          | some ramp => decide (rampStation ramp = some st)
          | none => (s.stations.get st).subscribed.contains n.kind) then
          ((s.links.get st).place n.kind n.content).release
        else s.links.get st) ∧
    ∀ l : Link, l.queue.length ≤ 16 →
      (l.mailbox ≠ [] → l.release = l) ∧
      (l.mailbox = [] →
        let freed := min (16 - l.queue.length) l.slots.length
        l.release =
          { l with
            queue := l.queue ++ (l.slots.take freed).map fun x => noticeFrame x.kind x.merge x.content
            slots := l.slots.drop freed })

/-- R35, R36, R52, R75, R157, R158, R160, R174: the reads answer ACK with the pages of their tables and change
nothing, IDENT with the module's codes and capacities; a list of reservations stands behind its count byte
(R173), and a malformed booking in READ_UNIT is refused FIELD naming field 1; SUBSCRIBE replaces the station's
set by the kinds listed, and leaves it where the list is longer than thirteen (FIELD 1 at position 0) or an
element names no broadcast kind or repeats an earlier one (at its position). The bytes of summaries and extras
are notes/assumptions/10.md's, that a list failing in both ways names its earliest such element 36.md's, and
that a stopped move timer is reported as 0 35.md's. -/
def Obligations.ReadsReport : Prop :=
  (∀ (st : Station) (s : State) (f : Frame) (n page : Nat) (l : Lane),
      s.Offers st 0x50 (u8 n ++ u8 page) f → s.tablesOk = true → s.planMode = true →
      laneNumberOk n = true → s.lanes.get n = some l →
      let header := u8 n ++ u8 page ++ u16 l.revision ++ u8 l.entries.length ++
        u8 ((l.entries.length + 3) / 4)
      (page = 0 → OnlyAnswers (.readLane st) s st f (.ack (header ++ laneSummary s n l))) ∧
      (1 ≤ page → page ≤ 6 →
        OnlyAnswers (.readLane st) s st f
          (.ack (header ++ ((l.entries.drop (4 * page - 4)).take 4).flatMap encEntry))) ∧
      (6 < page → page < 256 → OnlyAnswers (.readLane st) s st f (.refuseField 2 0 []))) ∧
    (∀ (st : Station) (s : State) (f : Frame) (p : List Byte), s.Offers st 0x51 p f →
      s.tablesOk = true → p.length = 10 → decBooking p = none →
      OnlyAnswers (.readUnit st) s st f (.refuseField 1 0 [])) ∧
    (∀ (st : Station) (s : State) (f : Frame) (b : Booking), bookingOk b = true →
      s.Offers st 0x51 (encBooking b) f → s.tablesOk = true →
      (∀ r, s.findRecord b = some r →
        OnlyAnswers (.readUnit st) s st f (.ack (u8 1 ++ encRecord r ++ recordExtras s r))) ∧
      (∀ g, s.findRecord b = none → s.findEntry b = some g →
        OnlyAnswers (.readUnit st) s st f
          (.ack (u8 2 ++ u8 g.laneNo ++ u8 g.position ++ encEntry g.entry ++ entryExtras s g))) ∧
      (s.findRecord b = none → s.findEntry b = none →
        OnlyAnswers (.readUnit st) s st f (.refuse .unknown []))) ∧
    (∀ (st : Station) (s : State) (f : Frame) (page : Nat), s.Offers st 0x52 (u8 page) f →
      s.tablesOk = true → page < 256 →
      (page = 0 → OnlyAnswers (.readAccount st) s st f
        (.ack (u8 0 ++ u16 s.account.revision ++ accountSummary s))) ∧
      (page = 1 → OnlyAnswers (.readAccount st) s st f
        (.ack (u8 1 ++ u16 s.account.revision ++
          [1, 2, 3, 4, 5, 6, 7, 8].flatMap fun z => encZoneState (s.zones.get z)))) ∧
      (page = 2 → OnlyAnswers (.readAccount st) s st f
        (.ack (u8 2 ++ u16 s.account.revision ++
          [9, 10, 11, 12, 13, 14, 15, 16].flatMap fun z => encZoneState (s.zones.get z)))) ∧
      (2 < page → OnlyAnswers (.readAccount st) s st f (.refuseField 1 0 []))) ∧
    (∀ (st : Station) (s : State) (f : Frame) (page : Nat), s.Offers st 0x53 (u8 page) f →
      s.tablesOk = true → page < 256 →
      let header := u8 page ++ u32 s.clock.now ++ u8 s.movements.length
      (page = 0 → OnlyAnswers (.readState st) s st f (.ack (header ++ stateSummary s))) ∧
      (1 ≤ page → page ≤ 4 →
        let four := (s.movements.drop (4 * page - 4)).take 4
        OnlyAnswers (.readState st) s st f
          (.ack (header ++ u8 four.length ++ four.flatMap encReservation))) ∧
      (page = 5 → OnlyAnswers (.readState st) s st f
        (.ack (header ++ [1, 2, 3, 4, 5, 6].flatMap (encSectionState s)))) ∧
      (5 < page → OnlyAnswers (.readState st) s st f (.refuseField 1 0 []))) ∧
    (∀ (st : Station) (s : State) (f : Frame), s.Offers st 0x54 [] f → s.tablesOk = true →
      let rate := if s.control.rateStraps.toNat ≤ 4 then s.control.rateStraps.toNat else 0
      OnlyAnswers (.ident st) s st f
        (.ack (u16 0x0A3E ++ u16 0x4816 ++ u8 1 ++ u8 2 ++ u8 rate ++
          [48, 16, 4, 6, 256, 640, 24, 16, 16].flatMap u16))) ∧
    (∀ (st : Station) (s : State) (f : Frame) (elements : List Nat),
      s.Offers st 0x55 (encNums elements) f → s.tablesOk = true → elements.length < 256 →
      (∀ e ∈ elements, e < 256) →
      (13 < elements.length → OnlyAnswers (.subscribe st) s st f (.refuseField 1 0 [])) ∧
      ∀ earlier e later, elements.length ≤ 13 → elements = earlier ++ e :: later →
        (∀ x ∈ earlier, x ∈ broadcastKinds.map noticeCode) → earlier.Nodup →
        e ∉ broadcastKinds.map noticeCode ∨ e ∈ earlier →
        OnlyAnswers (.subscribe st) s st f (.refuseField 1 (earlier.length + 1) [])) ∧
    ∀ (st : Station) (s : State) (f : Frame) (kinds : List NoticeKind),
      s.Offers st 0x55 (encNums (kinds.map noticeCode)) f → s.tablesOk = true → kinds.Nodup →
      (∀ k ∈ kinds, k ∈ broadcastKinds) →
      let stored := broadcastKinds.filter fun k => decide (k ∈ kinds)
      exec (.subscribe st) s =
        .next (({ s.popMailbox st with
            stations := s.stations.set st { s.stations.get st with subscribed := stored } } :
          State).concluded st (replyFrame f (.ack (encNums (stored.map noticeCode)))))

/-- R33 and R139: the lamp of a defined lane in RUN and RECOVERY is GREEN in service, RED when FULL, CLOSED,
in CHECK or MOVING, and DARK otherwise, and every lamp is DARK in PROFILE and POWER_DOWN; the move output of a
fitted section carries its target while it moves, and is off at every other time. In reset every lamp is DARK
and every move output off (R165), and so they are without supply (notes/assumptions/6.md). -/
def Obligations.OutputsFollowTheState : Prop :=
  ∀ s : State, s.modeOk = true →
    (∀ n l, s.working = true → s.planMode = true → s.lanes.get n = some l →
      (l.inService = true → s.lampOutput n = .green) ∧
      (l.inService = false →
        (s.displayed l = .full ∨ s.displayed l = .closed ∨ s.displayed l = .check ∨
          s.displayed l = .moving → s.lampOutput n = .red) ∧
        (s.displayed l = .openLane ∨ s.displayed l = .filling ∨ s.displayed l = .away →
          s.lampOutput n = .dark))) ∧
    (∀ n, s.working = false ∨ s.mode = .profile ∨ s.mode = .powerDown ∨ s.lanes.get n = none →
      s.lampOutput n = .dark) ∧
    (∀ n c p, s.working = true → s.fittedSection n = some c → c.state = .moving →
      c.target = some p → s.moveOutput n = some p) ∧
    (∀ n c, s.fittedSection n = some c → c.state ≠ .moving → s.moveOutput n = none) ∧
    ∀ n, s.working = false ∨ s.mode = .profile ∨ s.mode = .powerDown ∨ s.fittedSection n = none →
      s.moveOutput n = none

end
end

