-- ==== Sys2Proof/Laws/State.lean ====
section
/-! SUPPORT. What each named update of the state leaves as it was: one lemma for a field and an update,
true by unfolding, so that no later proof unfolds a record update. -/

namespace Sys2Proof.Machine

variable (s : State)

/-! `State.setLink` -/

@[simp] theorem State.setLink_stations (st : Station) (l : Link) : (s.setLink st l).stations = s.stations := rfl
@[simp] theorem State.setLink_register (st : Station) (l : Link) : (s.setLink st l).register = s.register := rfl
@[simp] theorem State.setLink_isSealed (st : Station) (l : Link) : (s.setLink st l).isSealed = s.isSealed := rfl
@[simp] theorem State.setLink_lanes (st : Station) (l : Link) : (s.setLink st l).lanes = s.lanes := rfl
@[simp] theorem State.setLink_zones (st : Station) (l : Link) : (s.setLink st l).zones = s.zones := rfl
@[simp] theorem State.setLink_ramps (st : Station) (l : Link) : (s.setLink st l).ramps = s.ramps := rfl
@[simp] theorem State.setLink_sections (st : Station) (l : Link) : (s.setLink st l).sections = s.sections := rfl
@[simp] theorem State.setLink_gap (st : Station) (l : Link) : (s.setLink st l).gap = s.gap := rfl
@[simp] theorem State.setLink_segregation (st : Station) (l : Link) : (s.setLink st l).segregation = s.segregation := rfl
@[simp] theorem State.setLink_poolInUse (st : Station) (l : Link) : (s.setLink st l).poolInUse = s.poolInUse := rfl
@[simp] theorem State.setLink_account (st : Station) (l : Link) : (s.setLink st l).account = s.account := rfl
@[simp] theorem State.setLink_monitor (st : Station) (l : Link) : (s.setLink st l).monitor = s.monitor := rfl
@[simp] theorem State.setLink_seqNext (st : Station) (l : Link) : (s.setLink st l).seqNext = s.seqNext := rfl
@[simp] theorem State.setLink_movements (st : Station) (l : Link) : (s.setLink st l).movements = s.movements := rfl
@[simp] theorem State.setLink_timeout (st : Station) (l : Link) : (s.setLink st l).timeout = s.timeout := rfl
@[simp] theorem State.setLink_waiting (st : Station) (l : Link) : (s.setLink st l).waiting = s.waiting := rfl
@[simp] theorem State.setLink_clock (st : Station) (l : Link) : (s.setLink st l).clock = s.clock := rfl
@[simp] theorem State.setLink_inputs (st : Station) (l : Link) : (s.setLink st l).inputs = s.inputs := rfl
@[simp] theorem State.setLink_control (st : Station) (l : Link) : (s.setLink st l).control = s.control := rfl
@[simp] theorem State.setLink_store (st : Station) (l : Link) : (s.setLink st l).store = s.store := rfl
@[simp] theorem State.setLink_pending (st : Station) (l : Link) : (s.setLink st l).pending = s.pending := rfl

/-! `State.setStation` -/

@[simp] theorem State.setStation_links (st : Station) (r : StationRow) : (s.setStation st r).links = s.links := rfl
@[simp] theorem State.setStation_register (st : Station) (r : StationRow) : (s.setStation st r).register = s.register := rfl
@[simp] theorem State.setStation_isSealed (st : Station) (r : StationRow) : (s.setStation st r).isSealed = s.isSealed := rfl
@[simp] theorem State.setStation_lanes (st : Station) (r : StationRow) : (s.setStation st r).lanes = s.lanes := rfl
@[simp] theorem State.setStation_zones (st : Station) (r : StationRow) : (s.setStation st r).zones = s.zones := rfl
@[simp] theorem State.setStation_ramps (st : Station) (r : StationRow) : (s.setStation st r).ramps = s.ramps := rfl
@[simp] theorem State.setStation_sections (st : Station) (r : StationRow) : (s.setStation st r).sections = s.sections := rfl
@[simp] theorem State.setStation_gap (st : Station) (r : StationRow) : (s.setStation st r).gap = s.gap := rfl
@[simp] theorem State.setStation_segregation (st : Station) (r : StationRow) : (s.setStation st r).segregation = s.segregation := rfl
@[simp] theorem State.setStation_poolInUse (st : Station) (r : StationRow) : (s.setStation st r).poolInUse = s.poolInUse := rfl
@[simp] theorem State.setStation_account (st : Station) (r : StationRow) : (s.setStation st r).account = s.account := rfl
@[simp] theorem State.setStation_monitor (st : Station) (r : StationRow) : (s.setStation st r).monitor = s.monitor := rfl
@[simp] theorem State.setStation_seqNext (st : Station) (r : StationRow) : (s.setStation st r).seqNext = s.seqNext := rfl
@[simp] theorem State.setStation_movements (st : Station) (r : StationRow) : (s.setStation st r).movements = s.movements := rfl
@[simp] theorem State.setStation_timeout (st : Station) (r : StationRow) : (s.setStation st r).timeout = s.timeout := rfl
@[simp] theorem State.setStation_waiting (st : Station) (r : StationRow) : (s.setStation st r).waiting = s.waiting := rfl
@[simp] theorem State.setStation_clock (st : Station) (r : StationRow) : (s.setStation st r).clock = s.clock := rfl
@[simp] theorem State.setStation_inputs (st : Station) (r : StationRow) : (s.setStation st r).inputs = s.inputs := rfl
@[simp] theorem State.setStation_control (st : Station) (r : StationRow) : (s.setStation st r).control = s.control := rfl
@[simp] theorem State.setStation_store (st : Station) (r : StationRow) : (s.setStation st r).store = s.store := rfl
@[simp] theorem State.setStation_pending (st : Station) (r : StationRow) : (s.setStation st r).pending = s.pending := rfl

/-! `State.reply` -/

@[simp] theorem State.reply_stations (st : Station) (f : Frame) : (s.reply st f).stations = s.stations := rfl
@[simp] theorem State.reply_register (st : Station) (f : Frame) : (s.reply st f).register = s.register := rfl
@[simp] theorem State.reply_isSealed (st : Station) (f : Frame) : (s.reply st f).isSealed = s.isSealed := rfl
@[simp] theorem State.reply_lanes (st : Station) (f : Frame) : (s.reply st f).lanes = s.lanes := rfl
@[simp] theorem State.reply_zones (st : Station) (f : Frame) : (s.reply st f).zones = s.zones := rfl
@[simp] theorem State.reply_ramps (st : Station) (f : Frame) : (s.reply st f).ramps = s.ramps := rfl
@[simp] theorem State.reply_sections (st : Station) (f : Frame) : (s.reply st f).sections = s.sections := rfl
@[simp] theorem State.reply_gap (st : Station) (f : Frame) : (s.reply st f).gap = s.gap := rfl
@[simp] theorem State.reply_segregation (st : Station) (f : Frame) : (s.reply st f).segregation = s.segregation := rfl
@[simp] theorem State.reply_poolInUse (st : Station) (f : Frame) : (s.reply st f).poolInUse = s.poolInUse := rfl
@[simp] theorem State.reply_account (st : Station) (f : Frame) : (s.reply st f).account = s.account := rfl
@[simp] theorem State.reply_monitor (st : Station) (f : Frame) : (s.reply st f).monitor = s.monitor := rfl
@[simp] theorem State.reply_seqNext (st : Station) (f : Frame) : (s.reply st f).seqNext = s.seqNext := rfl
@[simp] theorem State.reply_movements (st : Station) (f : Frame) : (s.reply st f).movements = s.movements := rfl
@[simp] theorem State.reply_timeout (st : Station) (f : Frame) : (s.reply st f).timeout = s.timeout := rfl
@[simp] theorem State.reply_waiting (st : Station) (f : Frame) : (s.reply st f).waiting = s.waiting := rfl
@[simp] theorem State.reply_clock (st : Station) (f : Frame) : (s.reply st f).clock = s.clock := rfl
@[simp] theorem State.reply_inputs (st : Station) (f : Frame) : (s.reply st f).inputs = s.inputs := rfl
@[simp] theorem State.reply_control (st : Station) (f : Frame) : (s.reply st f).control = s.control := rfl
@[simp] theorem State.reply_store (st : Station) (f : Frame) : (s.reply st f).store = s.store := rfl
@[simp] theorem State.reply_pending (st : Station) (f : Frame) : (s.reply st f).pending = s.pending := rfl

/-! `State.send` -/

@[simp] theorem State.send_stations (n : Notice) : (s.send n).stations = s.stations := rfl
@[simp] theorem State.send_register (n : Notice) : (s.send n).register = s.register := rfl
@[simp] theorem State.send_isSealed (n : Notice) : (s.send n).isSealed = s.isSealed := rfl
@[simp] theorem State.send_lanes (n : Notice) : (s.send n).lanes = s.lanes := rfl
@[simp] theorem State.send_zones (n : Notice) : (s.send n).zones = s.zones := rfl
@[simp] theorem State.send_ramps (n : Notice) : (s.send n).ramps = s.ramps := rfl
@[simp] theorem State.send_sections (n : Notice) : (s.send n).sections = s.sections := rfl
@[simp] theorem State.send_gap (n : Notice) : (s.send n).gap = s.gap := rfl
@[simp] theorem State.send_segregation (n : Notice) : (s.send n).segregation = s.segregation := rfl
@[simp] theorem State.send_poolInUse (n : Notice) : (s.send n).poolInUse = s.poolInUse := rfl
@[simp] theorem State.send_account (n : Notice) : (s.send n).account = s.account := rfl
@[simp] theorem State.send_monitor (n : Notice) : (s.send n).monitor = s.monitor := rfl
@[simp] theorem State.send_seqNext (n : Notice) : (s.send n).seqNext = s.seqNext := rfl
@[simp] theorem State.send_movements (n : Notice) : (s.send n).movements = s.movements := rfl
@[simp] theorem State.send_timeout (n : Notice) : (s.send n).timeout = s.timeout := rfl
@[simp] theorem State.send_waiting (n : Notice) : (s.send n).waiting = s.waiting := rfl
@[simp] theorem State.send_clock (n : Notice) : (s.send n).clock = s.clock := rfl
@[simp] theorem State.send_inputs (n : Notice) : (s.send n).inputs = s.inputs := rfl
@[simp] theorem State.send_control (n : Notice) : (s.send n).control = s.control := rfl
@[simp] theorem State.send_store (n : Notice) : (s.send n).store = s.store := rfl
@[simp] theorem State.send_pending (n : Notice) : (s.send n).pending = s.pending := rfl

/-! `State.releaseAll` -/

@[simp] theorem State.releaseAll_stations : s.releaseAll.stations = s.stations := rfl
@[simp] theorem State.releaseAll_register : s.releaseAll.register = s.register := rfl
@[simp] theorem State.releaseAll_isSealed : s.releaseAll.isSealed = s.isSealed := rfl
@[simp] theorem State.releaseAll_lanes : s.releaseAll.lanes = s.lanes := rfl
@[simp] theorem State.releaseAll_zones : s.releaseAll.zones = s.zones := rfl
@[simp] theorem State.releaseAll_ramps : s.releaseAll.ramps = s.ramps := rfl
@[simp] theorem State.releaseAll_sections : s.releaseAll.sections = s.sections := rfl
@[simp] theorem State.releaseAll_gap : s.releaseAll.gap = s.gap := rfl
@[simp] theorem State.releaseAll_segregation : s.releaseAll.segregation = s.segregation := rfl
@[simp] theorem State.releaseAll_poolInUse : s.releaseAll.poolInUse = s.poolInUse := rfl
@[simp] theorem State.releaseAll_account : s.releaseAll.account = s.account := rfl
@[simp] theorem State.releaseAll_monitor : s.releaseAll.monitor = s.monitor := rfl
@[simp] theorem State.releaseAll_seqNext : s.releaseAll.seqNext = s.seqNext := rfl
@[simp] theorem State.releaseAll_movements : s.releaseAll.movements = s.movements := rfl
@[simp] theorem State.releaseAll_timeout : s.releaseAll.timeout = s.timeout := rfl
@[simp] theorem State.releaseAll_waiting : s.releaseAll.waiting = s.waiting := rfl
@[simp] theorem State.releaseAll_clock : s.releaseAll.clock = s.clock := rfl
@[simp] theorem State.releaseAll_inputs : s.releaseAll.inputs = s.inputs := rfl
@[simp] theorem State.releaseAll_control : s.releaseAll.control = s.control := rfl
@[simp] theorem State.releaseAll_store : s.releaseAll.store = s.store := rfl
@[simp] theorem State.releaseAll_pending : s.releaseAll.pending = s.pending := rfl

/-! `State.commit` -/

@[simp] theorem State.commit_links : s.commit.links = s.links := rfl
@[simp] theorem State.commit_stations : s.commit.stations = s.stations := rfl
@[simp] theorem State.commit_register : s.commit.register = s.register := rfl
@[simp] theorem State.commit_isSealed : s.commit.isSealed = s.isSealed := rfl
@[simp] theorem State.commit_lanes : s.commit.lanes = s.lanes := rfl
@[simp] theorem State.commit_zones : s.commit.zones = s.zones := rfl
@[simp] theorem State.commit_ramps : s.commit.ramps = s.ramps := rfl
@[simp] theorem State.commit_sections : s.commit.sections = s.sections := rfl
@[simp] theorem State.commit_gap : s.commit.gap = s.gap := rfl
@[simp] theorem State.commit_segregation : s.commit.segregation = s.segregation := rfl
@[simp] theorem State.commit_poolInUse : s.commit.poolInUse = s.poolInUse := rfl
@[simp] theorem State.commit_account : s.commit.account = s.account := rfl
@[simp] theorem State.commit_monitor : s.commit.monitor = s.monitor := rfl
@[simp] theorem State.commit_seqNext : s.commit.seqNext = s.seqNext := rfl
@[simp] theorem State.commit_movements : s.commit.movements = s.movements := rfl
@[simp] theorem State.commit_timeout : s.commit.timeout = s.timeout := rfl
@[simp] theorem State.commit_waiting : s.commit.waiting = s.waiting := rfl
@[simp] theorem State.commit_clock : s.commit.clock = s.clock := rfl
@[simp] theorem State.commit_inputs : s.commit.inputs = s.inputs := rfl
@[simp] theorem State.commit_control : s.commit.control = s.control := rfl
@[simp] theorem State.commit_pending : s.commit.pending = s.pending := rfl

/-! `State.popMailbox` -/

@[simp] theorem State.popMailbox_stations (st : Station) : (s.popMailbox st).stations = s.stations := rfl
@[simp] theorem State.popMailbox_register (st : Station) : (s.popMailbox st).register = s.register := rfl
@[simp] theorem State.popMailbox_isSealed (st : Station) : (s.popMailbox st).isSealed = s.isSealed := rfl
@[simp] theorem State.popMailbox_lanes (st : Station) : (s.popMailbox st).lanes = s.lanes := rfl
@[simp] theorem State.popMailbox_zones (st : Station) : (s.popMailbox st).zones = s.zones := rfl
@[simp] theorem State.popMailbox_ramps (st : Station) : (s.popMailbox st).ramps = s.ramps := rfl
@[simp] theorem State.popMailbox_sections (st : Station) : (s.popMailbox st).sections = s.sections := rfl
@[simp] theorem State.popMailbox_gap (st : Station) : (s.popMailbox st).gap = s.gap := rfl
@[simp] theorem State.popMailbox_segregation (st : Station) : (s.popMailbox st).segregation = s.segregation := rfl
@[simp] theorem State.popMailbox_poolInUse (st : Station) : (s.popMailbox st).poolInUse = s.poolInUse := rfl
@[simp] theorem State.popMailbox_account (st : Station) : (s.popMailbox st).account = s.account := rfl
@[simp] theorem State.popMailbox_monitor (st : Station) : (s.popMailbox st).monitor = s.monitor := rfl
@[simp] theorem State.popMailbox_seqNext (st : Station) : (s.popMailbox st).seqNext = s.seqNext := rfl
@[simp] theorem State.popMailbox_movements (st : Station) : (s.popMailbox st).movements = s.movements := rfl
@[simp] theorem State.popMailbox_timeout (st : Station) : (s.popMailbox st).timeout = s.timeout := rfl
@[simp] theorem State.popMailbox_waiting (st : Station) : (s.popMailbox st).waiting = s.waiting := rfl
@[simp] theorem State.popMailbox_clock (st : Station) : (s.popMailbox st).clock = s.clock := rfl
@[simp] theorem State.popMailbox_inputs (st : Station) : (s.popMailbox st).inputs = s.inputs := rfl
@[simp] theorem State.popMailbox_control (st : Station) : (s.popMailbox st).control = s.control := rfl
@[simp] theorem State.popMailbox_store (st : Station) : (s.popMailbox st).store = s.store := rfl
@[simp] theorem State.popMailbox_pending (st : Station) : (s.popMailbox st).pending = s.pending := rfl

/-! `State.setReceiver` -/

@[simp] theorem State.setReceiver_stations (st : Station) (r : Receiver) : (s.setReceiver st r).stations = s.stations := rfl
@[simp] theorem State.setReceiver_register (st : Station) (r : Receiver) : (s.setReceiver st r).register = s.register := rfl
@[simp] theorem State.setReceiver_isSealed (st : Station) (r : Receiver) : (s.setReceiver st r).isSealed = s.isSealed := rfl
@[simp] theorem State.setReceiver_lanes (st : Station) (r : Receiver) : (s.setReceiver st r).lanes = s.lanes := rfl
@[simp] theorem State.setReceiver_zones (st : Station) (r : Receiver) : (s.setReceiver st r).zones = s.zones := rfl
@[simp] theorem State.setReceiver_ramps (st : Station) (r : Receiver) : (s.setReceiver st r).ramps = s.ramps := rfl
@[simp] theorem State.setReceiver_sections (st : Station) (r : Receiver) : (s.setReceiver st r).sections = s.sections := rfl
@[simp] theorem State.setReceiver_gap (st : Station) (r : Receiver) : (s.setReceiver st r).gap = s.gap := rfl
@[simp] theorem State.setReceiver_segregation (st : Station) (r : Receiver) : (s.setReceiver st r).segregation = s.segregation := rfl
@[simp] theorem State.setReceiver_poolInUse (st : Station) (r : Receiver) : (s.setReceiver st r).poolInUse = s.poolInUse := rfl
@[simp] theorem State.setReceiver_account (st : Station) (r : Receiver) : (s.setReceiver st r).account = s.account := rfl
@[simp] theorem State.setReceiver_monitor (st : Station) (r : Receiver) : (s.setReceiver st r).monitor = s.monitor := rfl
@[simp] theorem State.setReceiver_seqNext (st : Station) (r : Receiver) : (s.setReceiver st r).seqNext = s.seqNext := rfl
@[simp] theorem State.setReceiver_movements (st : Station) (r : Receiver) : (s.setReceiver st r).movements = s.movements := rfl
@[simp] theorem State.setReceiver_timeout (st : Station) (r : Receiver) : (s.setReceiver st r).timeout = s.timeout := rfl
@[simp] theorem State.setReceiver_waiting (st : Station) (r : Receiver) : (s.setReceiver st r).waiting = s.waiting := rfl
@[simp] theorem State.setReceiver_clock (st : Station) (r : Receiver) : (s.setReceiver st r).clock = s.clock := rfl
@[simp] theorem State.setReceiver_inputs (st : Station) (r : Receiver) : (s.setReceiver st r).inputs = s.inputs := rfl
@[simp] theorem State.setReceiver_control (st : Station) (r : Receiver) : (s.setReceiver st r).control = s.control := rfl
@[simp] theorem State.setReceiver_store (st : Station) (r : Receiver) : (s.setReceiver st r).store = s.store := rfl
@[simp] theorem State.setReceiver_pending (st : Station) (r : Receiver) : (s.setReceiver st r).pending = s.pending := rfl

/-! `State.onLane` -/

@[simp] theorem State.onLane_links (n : Nat) (f : Lane → Lane) : (s.onLane n f).links = s.links := rfl
@[simp] theorem State.onLane_stations (n : Nat) (f : Lane → Lane) : (s.onLane n f).stations = s.stations := rfl
@[simp] theorem State.onLane_register (n : Nat) (f : Lane → Lane) : (s.onLane n f).register = s.register := rfl
@[simp] theorem State.onLane_isSealed (n : Nat) (f : Lane → Lane) : (s.onLane n f).isSealed = s.isSealed := rfl
@[simp] theorem State.onLane_zones (n : Nat) (f : Lane → Lane) : (s.onLane n f).zones = s.zones := rfl
@[simp] theorem State.onLane_ramps (n : Nat) (f : Lane → Lane) : (s.onLane n f).ramps = s.ramps := rfl
@[simp] theorem State.onLane_sections (n : Nat) (f : Lane → Lane) : (s.onLane n f).sections = s.sections := rfl
@[simp] theorem State.onLane_gap (n : Nat) (f : Lane → Lane) : (s.onLane n f).gap = s.gap := rfl
@[simp] theorem State.onLane_segregation (n : Nat) (f : Lane → Lane) : (s.onLane n f).segregation = s.segregation := rfl
@[simp] theorem State.onLane_poolInUse (n : Nat) (f : Lane → Lane) : (s.onLane n f).poolInUse = s.poolInUse := rfl
@[simp] theorem State.onLane_account (n : Nat) (f : Lane → Lane) : (s.onLane n f).account = s.account := rfl
@[simp] theorem State.onLane_monitor (n : Nat) (f : Lane → Lane) : (s.onLane n f).monitor = s.monitor := rfl
@[simp] theorem State.onLane_seqNext (n : Nat) (f : Lane → Lane) : (s.onLane n f).seqNext = s.seqNext := rfl
@[simp] theorem State.onLane_movements (n : Nat) (f : Lane → Lane) : (s.onLane n f).movements = s.movements := rfl
@[simp] theorem State.onLane_timeout (n : Nat) (f : Lane → Lane) : (s.onLane n f).timeout = s.timeout := rfl
@[simp] theorem State.onLane_waiting (n : Nat) (f : Lane → Lane) : (s.onLane n f).waiting = s.waiting := rfl
@[simp] theorem State.onLane_clock (n : Nat) (f : Lane → Lane) : (s.onLane n f).clock = s.clock := rfl
@[simp] theorem State.onLane_inputs (n : Nat) (f : Lane → Lane) : (s.onLane n f).inputs = s.inputs := rfl
@[simp] theorem State.onLane_control (n : Nat) (f : Lane → Lane) : (s.onLane n f).control = s.control := rfl
@[simp] theorem State.onLane_store (n : Nat) (f : Lane → Lane) : (s.onLane n f).store = s.store := rfl
@[simp] theorem State.onLane_pending (n : Nat) (f : Lane → Lane) : (s.onLane n f).pending = s.pending := rfl

/-! `State.onRamp` -/

@[simp] theorem State.onRamp_links (n : Nat) (f : Ramp → Ramp) : (s.onRamp n f).links = s.links := rfl
@[simp] theorem State.onRamp_stations (n : Nat) (f : Ramp → Ramp) : (s.onRamp n f).stations = s.stations := rfl
@[simp] theorem State.onRamp_register (n : Nat) (f : Ramp → Ramp) : (s.onRamp n f).register = s.register := rfl
@[simp] theorem State.onRamp_isSealed (n : Nat) (f : Ramp → Ramp) : (s.onRamp n f).isSealed = s.isSealed := rfl
@[simp] theorem State.onRamp_lanes (n : Nat) (f : Ramp → Ramp) : (s.onRamp n f).lanes = s.lanes := rfl
@[simp] theorem State.onRamp_zones (n : Nat) (f : Ramp → Ramp) : (s.onRamp n f).zones = s.zones := rfl
@[simp] theorem State.onRamp_sections (n : Nat) (f : Ramp → Ramp) : (s.onRamp n f).sections = s.sections := rfl
@[simp] theorem State.onRamp_gap (n : Nat) (f : Ramp → Ramp) : (s.onRamp n f).gap = s.gap := rfl
@[simp] theorem State.onRamp_segregation (n : Nat) (f : Ramp → Ramp) : (s.onRamp n f).segregation = s.segregation := rfl
@[simp] theorem State.onRamp_poolInUse (n : Nat) (f : Ramp → Ramp) : (s.onRamp n f).poolInUse = s.poolInUse := rfl
@[simp] theorem State.onRamp_account (n : Nat) (f : Ramp → Ramp) : (s.onRamp n f).account = s.account := rfl
@[simp] theorem State.onRamp_monitor (n : Nat) (f : Ramp → Ramp) : (s.onRamp n f).monitor = s.monitor := rfl
@[simp] theorem State.onRamp_seqNext (n : Nat) (f : Ramp → Ramp) : (s.onRamp n f).seqNext = s.seqNext := rfl
@[simp] theorem State.onRamp_movements (n : Nat) (f : Ramp → Ramp) : (s.onRamp n f).movements = s.movements := rfl
@[simp] theorem State.onRamp_timeout (n : Nat) (f : Ramp → Ramp) : (s.onRamp n f).timeout = s.timeout := rfl
@[simp] theorem State.onRamp_waiting (n : Nat) (f : Ramp → Ramp) : (s.onRamp n f).waiting = s.waiting := rfl
@[simp] theorem State.onRamp_clock (n : Nat) (f : Ramp → Ramp) : (s.onRamp n f).clock = s.clock := rfl
@[simp] theorem State.onRamp_inputs (n : Nat) (f : Ramp → Ramp) : (s.onRamp n f).inputs = s.inputs := rfl
@[simp] theorem State.onRamp_control (n : Nat) (f : Ramp → Ramp) : (s.onRamp n f).control = s.control := rfl
@[simp] theorem State.onRamp_store (n : Nat) (f : Ramp → Ramp) : (s.onRamp n f).store = s.store := rfl
@[simp] theorem State.onRamp_pending (n : Nat) (f : Ramp → Ramp) : (s.onRamp n f).pending = s.pending := rfl

/-! `State.onSection` -/

@[simp] theorem State.onSection_links (n : Nat) (f : Sect → Sect) : (s.onSection n f).links = s.links := rfl
@[simp] theorem State.onSection_stations (n : Nat) (f : Sect → Sect) : (s.onSection n f).stations = s.stations := rfl
@[simp] theorem State.onSection_register (n : Nat) (f : Sect → Sect) : (s.onSection n f).register = s.register := rfl
@[simp] theorem State.onSection_isSealed (n : Nat) (f : Sect → Sect) : (s.onSection n f).isSealed = s.isSealed := rfl
@[simp] theorem State.onSection_lanes (n : Nat) (f : Sect → Sect) : (s.onSection n f).lanes = s.lanes := rfl
@[simp] theorem State.onSection_zones (n : Nat) (f : Sect → Sect) : (s.onSection n f).zones = s.zones := rfl
@[simp] theorem State.onSection_ramps (n : Nat) (f : Sect → Sect) : (s.onSection n f).ramps = s.ramps := rfl
@[simp] theorem State.onSection_gap (n : Nat) (f : Sect → Sect) : (s.onSection n f).gap = s.gap := rfl
@[simp] theorem State.onSection_segregation (n : Nat) (f : Sect → Sect) : (s.onSection n f).segregation = s.segregation := rfl
@[simp] theorem State.onSection_poolInUse (n : Nat) (f : Sect → Sect) : (s.onSection n f).poolInUse = s.poolInUse := rfl
@[simp] theorem State.onSection_account (n : Nat) (f : Sect → Sect) : (s.onSection n f).account = s.account := rfl
@[simp] theorem State.onSection_monitor (n : Nat) (f : Sect → Sect) : (s.onSection n f).monitor = s.monitor := rfl
@[simp] theorem State.onSection_seqNext (n : Nat) (f : Sect → Sect) : (s.onSection n f).seqNext = s.seqNext := rfl
@[simp] theorem State.onSection_movements (n : Nat) (f : Sect → Sect) : (s.onSection n f).movements = s.movements := rfl
@[simp] theorem State.onSection_timeout (n : Nat) (f : Sect → Sect) : (s.onSection n f).timeout = s.timeout := rfl
@[simp] theorem State.onSection_waiting (n : Nat) (f : Sect → Sect) : (s.onSection n f).waiting = s.waiting := rfl
@[simp] theorem State.onSection_clock (n : Nat) (f : Sect → Sect) : (s.onSection n f).clock = s.clock := rfl
@[simp] theorem State.onSection_inputs (n : Nat) (f : Sect → Sect) : (s.onSection n f).inputs = s.inputs := rfl
@[simp] theorem State.onSection_control (n : Nat) (f : Sect → Sect) : (s.onSection n f).control = s.control := rfl
@[simp] theorem State.onSection_store (n : Nat) (f : Sect → Sect) : (s.onSection n f).store = s.store := rfl
@[simp] theorem State.onSection_pending (n : Nat) (f : Sect → Sect) : (s.onSection n f).pending = s.pending := rfl

/-! `State.setUnitState` -/

@[simp] theorem State.setUnitState_links (b : Booking) (u : UnitState) : (s.setUnitState b u).links = s.links := rfl
@[simp] theorem State.setUnitState_stations (b : Booking) (u : UnitState) : (s.setUnitState b u).stations = s.stations := rfl
@[simp] theorem State.setUnitState_isSealed (b : Booking) (u : UnitState) : (s.setUnitState b u).isSealed = s.isSealed := rfl
@[simp] theorem State.setUnitState_lanes (b : Booking) (u : UnitState) : (s.setUnitState b u).lanes = s.lanes := rfl
@[simp] theorem State.setUnitState_zones (b : Booking) (u : UnitState) : (s.setUnitState b u).zones = s.zones := rfl
@[simp] theorem State.setUnitState_ramps (b : Booking) (u : UnitState) : (s.setUnitState b u).ramps = s.ramps := rfl
@[simp] theorem State.setUnitState_sections (b : Booking) (u : UnitState) : (s.setUnitState b u).sections = s.sections := rfl
@[simp] theorem State.setUnitState_gap (b : Booking) (u : UnitState) : (s.setUnitState b u).gap = s.gap := rfl
@[simp] theorem State.setUnitState_segregation (b : Booking) (u : UnitState) : (s.setUnitState b u).segregation = s.segregation := rfl
@[simp] theorem State.setUnitState_poolInUse (b : Booking) (u : UnitState) : (s.setUnitState b u).poolInUse = s.poolInUse := rfl
@[simp] theorem State.setUnitState_account (b : Booking) (u : UnitState) : (s.setUnitState b u).account = s.account := rfl
@[simp] theorem State.setUnitState_monitor (b : Booking) (u : UnitState) : (s.setUnitState b u).monitor = s.monitor := rfl
@[simp] theorem State.setUnitState_seqNext (b : Booking) (u : UnitState) : (s.setUnitState b u).seqNext = s.seqNext := rfl
@[simp] theorem State.setUnitState_movements (b : Booking) (u : UnitState) : (s.setUnitState b u).movements = s.movements := rfl
@[simp] theorem State.setUnitState_timeout (b : Booking) (u : UnitState) : (s.setUnitState b u).timeout = s.timeout := rfl
@[simp] theorem State.setUnitState_waiting (b : Booking) (u : UnitState) : (s.setUnitState b u).waiting = s.waiting := rfl
@[simp] theorem State.setUnitState_clock (b : Booking) (u : UnitState) : (s.setUnitState b u).clock = s.clock := rfl
@[simp] theorem State.setUnitState_inputs (b : Booking) (u : UnitState) : (s.setUnitState b u).inputs = s.inputs := rfl
@[simp] theorem State.setUnitState_control (b : Booking) (u : UnitState) : (s.setUnitState b u).control = s.control := rfl
@[simp] theorem State.setUnitState_store (b : Booking) (u : UnitState) : (s.setUnitState b u).store = s.store := rfl
@[simp] theorem State.setUnitState_pending (b : Booking) (u : UnitState) : (s.setUnitState b u).pending = s.pending := rfl

/-! `State.removeRecord` -/

@[simp] theorem State.removeRecord_links (b : Booking) : (s.removeRecord b).links = s.links := rfl
@[simp] theorem State.removeRecord_stations (b : Booking) : (s.removeRecord b).stations = s.stations := rfl
@[simp] theorem State.removeRecord_isSealed (b : Booking) : (s.removeRecord b).isSealed = s.isSealed := rfl
@[simp] theorem State.removeRecord_lanes (b : Booking) : (s.removeRecord b).lanes = s.lanes := rfl
@[simp] theorem State.removeRecord_zones (b : Booking) : (s.removeRecord b).zones = s.zones := rfl
@[simp] theorem State.removeRecord_ramps (b : Booking) : (s.removeRecord b).ramps = s.ramps := rfl
@[simp] theorem State.removeRecord_sections (b : Booking) : (s.removeRecord b).sections = s.sections := rfl
@[simp] theorem State.removeRecord_gap (b : Booking) : (s.removeRecord b).gap = s.gap := rfl
@[simp] theorem State.removeRecord_segregation (b : Booking) : (s.removeRecord b).segregation = s.segregation := rfl
@[simp] theorem State.removeRecord_poolInUse (b : Booking) : (s.removeRecord b).poolInUse = s.poolInUse := rfl
@[simp] theorem State.removeRecord_account (b : Booking) : (s.removeRecord b).account = s.account := rfl
@[simp] theorem State.removeRecord_monitor (b : Booking) : (s.removeRecord b).monitor = s.monitor := rfl
@[simp] theorem State.removeRecord_seqNext (b : Booking) : (s.removeRecord b).seqNext = s.seqNext := rfl
@[simp] theorem State.removeRecord_movements (b : Booking) : (s.removeRecord b).movements = s.movements := rfl
@[simp] theorem State.removeRecord_timeout (b : Booking) : (s.removeRecord b).timeout = s.timeout := rfl
@[simp] theorem State.removeRecord_waiting (b : Booking) : (s.removeRecord b).waiting = s.waiting := rfl
@[simp] theorem State.removeRecord_clock (b : Booking) : (s.removeRecord b).clock = s.clock := rfl
@[simp] theorem State.removeRecord_inputs (b : Booking) : (s.removeRecord b).inputs = s.inputs := rfl
@[simp] theorem State.removeRecord_control (b : Booking) : (s.removeRecord b).control = s.control := rfl
@[simp] theorem State.removeRecord_store (b : Booking) : (s.removeRecord b).store = s.store := rfl
@[simp] theorem State.removeRecord_pending (b : Booking) : (s.removeRecord b).pending = s.pending := rfl

/-! `State.dropWaiting` -/

@[simp] theorem State.dropWaiting_links (b : Booking) : (s.dropWaiting b).links = s.links := rfl
@[simp] theorem State.dropWaiting_stations (b : Booking) : (s.dropWaiting b).stations = s.stations := rfl
@[simp] theorem State.dropWaiting_register (b : Booking) : (s.dropWaiting b).register = s.register := rfl
@[simp] theorem State.dropWaiting_isSealed (b : Booking) : (s.dropWaiting b).isSealed = s.isSealed := rfl
@[simp] theorem State.dropWaiting_lanes (b : Booking) : (s.dropWaiting b).lanes = s.lanes := rfl
@[simp] theorem State.dropWaiting_zones (b : Booking) : (s.dropWaiting b).zones = s.zones := rfl
@[simp] theorem State.dropWaiting_ramps (b : Booking) : (s.dropWaiting b).ramps = s.ramps := rfl
@[simp] theorem State.dropWaiting_sections (b : Booking) : (s.dropWaiting b).sections = s.sections := rfl
@[simp] theorem State.dropWaiting_gap (b : Booking) : (s.dropWaiting b).gap = s.gap := rfl
@[simp] theorem State.dropWaiting_segregation (b : Booking) : (s.dropWaiting b).segregation = s.segregation := rfl
@[simp] theorem State.dropWaiting_poolInUse (b : Booking) : (s.dropWaiting b).poolInUse = s.poolInUse := rfl
@[simp] theorem State.dropWaiting_account (b : Booking) : (s.dropWaiting b).account = s.account := rfl
@[simp] theorem State.dropWaiting_monitor (b : Booking) : (s.dropWaiting b).monitor = s.monitor := rfl
@[simp] theorem State.dropWaiting_seqNext (b : Booking) : (s.dropWaiting b).seqNext = s.seqNext := rfl
@[simp] theorem State.dropWaiting_movements (b : Booking) : (s.dropWaiting b).movements = s.movements := rfl
@[simp] theorem State.dropWaiting_timeout (b : Booking) : (s.dropWaiting b).timeout = s.timeout := rfl
@[simp] theorem State.dropWaiting_clock (b : Booking) : (s.dropWaiting b).clock = s.clock := rfl
@[simp] theorem State.dropWaiting_inputs (b : Booking) : (s.dropWaiting b).inputs = s.inputs := rfl
@[simp] theorem State.dropWaiting_control (b : Booking) : (s.dropWaiting b).control = s.control := rfl
@[simp] theorem State.dropWaiting_store (b : Booking) : (s.dropWaiting b).store = s.store := rfl
@[simp] theorem State.dropWaiting_pending (b : Booking) : (s.dropWaiting b).pending = s.pending := rfl

/-! `State.setWaiting` -/

@[simp] theorem State.setWaiting_links (w : Waiting) : (s.setWaiting w).links = s.links := rfl
@[simp] theorem State.setWaiting_stations (w : Waiting) : (s.setWaiting w).stations = s.stations := rfl
@[simp] theorem State.setWaiting_register (w : Waiting) : (s.setWaiting w).register = s.register := rfl
@[simp] theorem State.setWaiting_isSealed (w : Waiting) : (s.setWaiting w).isSealed = s.isSealed := rfl
@[simp] theorem State.setWaiting_lanes (w : Waiting) : (s.setWaiting w).lanes = s.lanes := rfl
@[simp] theorem State.setWaiting_zones (w : Waiting) : (s.setWaiting w).zones = s.zones := rfl
@[simp] theorem State.setWaiting_ramps (w : Waiting) : (s.setWaiting w).ramps = s.ramps := rfl
@[simp] theorem State.setWaiting_sections (w : Waiting) : (s.setWaiting w).sections = s.sections := rfl
@[simp] theorem State.setWaiting_gap (w : Waiting) : (s.setWaiting w).gap = s.gap := rfl
@[simp] theorem State.setWaiting_segregation (w : Waiting) : (s.setWaiting w).segregation = s.segregation := rfl
@[simp] theorem State.setWaiting_poolInUse (w : Waiting) : (s.setWaiting w).poolInUse = s.poolInUse := rfl
@[simp] theorem State.setWaiting_account (w : Waiting) : (s.setWaiting w).account = s.account := rfl
@[simp] theorem State.setWaiting_monitor (w : Waiting) : (s.setWaiting w).monitor = s.monitor := rfl
@[simp] theorem State.setWaiting_seqNext (w : Waiting) : (s.setWaiting w).seqNext = s.seqNext := rfl
@[simp] theorem State.setWaiting_movements (w : Waiting) : (s.setWaiting w).movements = s.movements := rfl
@[simp] theorem State.setWaiting_timeout (w : Waiting) : (s.setWaiting w).timeout = s.timeout := rfl
@[simp] theorem State.setWaiting_clock (w : Waiting) : (s.setWaiting w).clock = s.clock := rfl
@[simp] theorem State.setWaiting_inputs (w : Waiting) : (s.setWaiting w).inputs = s.inputs := rfl
@[simp] theorem State.setWaiting_control (w : Waiting) : (s.setWaiting w).control = s.control := rfl
@[simp] theorem State.setWaiting_store (w : Waiting) : (s.setWaiting w).store = s.store := rfl
@[simp] theorem State.setWaiting_pending (w : Waiting) : (s.setWaiting w).pending = s.pending := rfl

/-! `State.endReservation` -/

@[simp] theorem State.endReservation_links (r : Reservation) : (s.endReservation r).links = s.links := rfl
@[simp] theorem State.endReservation_stations (r : Reservation) : (s.endReservation r).stations = s.stations := rfl
@[simp] theorem State.endReservation_register (r : Reservation) : (s.endReservation r).register = s.register := rfl
@[simp] theorem State.endReservation_isSealed (r : Reservation) : (s.endReservation r).isSealed = s.isSealed := rfl
@[simp] theorem State.endReservation_lanes (r : Reservation) : (s.endReservation r).lanes = s.lanes := rfl
@[simp] theorem State.endReservation_zones (r : Reservation) : (s.endReservation r).zones = s.zones := rfl
@[simp] theorem State.endReservation_sections (r : Reservation) : (s.endReservation r).sections = s.sections := rfl
@[simp] theorem State.endReservation_gap (r : Reservation) : (s.endReservation r).gap = s.gap := rfl
@[simp] theorem State.endReservation_segregation (r : Reservation) : (s.endReservation r).segregation = s.segregation := rfl
@[simp] theorem State.endReservation_poolInUse (r : Reservation) : (s.endReservation r).poolInUse = s.poolInUse := rfl
@[simp] theorem State.endReservation_account (r : Reservation) : (s.endReservation r).account = s.account := rfl
@[simp] theorem State.endReservation_monitor (r : Reservation) : (s.endReservation r).monitor = s.monitor := rfl
@[simp] theorem State.endReservation_seqNext (r : Reservation) : (s.endReservation r).seqNext = s.seqNext := rfl
@[simp] theorem State.endReservation_timeout (r : Reservation) : (s.endReservation r).timeout = s.timeout := rfl
@[simp] theorem State.endReservation_waiting (r : Reservation) : (s.endReservation r).waiting = s.waiting := rfl
@[simp] theorem State.endReservation_clock (r : Reservation) : (s.endReservation r).clock = s.clock := rfl
@[simp] theorem State.endReservation_inputs (r : Reservation) : (s.endReservation r).inputs = s.inputs := rfl
@[simp] theorem State.endReservation_control (r : Reservation) : (s.endReservation r).control = s.control := rfl
@[simp] theorem State.endReservation_store (r : Reservation) : (s.endReservation r).store = s.store := rfl
@[simp] theorem State.endReservation_pending (r : Reservation) : (s.endReservation r).pending = s.pending := rfl

/-! `State.addReservation` -/

@[simp] theorem State.addReservation_links (r : Reservation) : (s.addReservation r).links = s.links := rfl
@[simp] theorem State.addReservation_stations (r : Reservation) : (s.addReservation r).stations = s.stations := rfl
@[simp] theorem State.addReservation_register (r : Reservation) : (s.addReservation r).register = s.register := rfl
@[simp] theorem State.addReservation_isSealed (r : Reservation) : (s.addReservation r).isSealed = s.isSealed := rfl
@[simp] theorem State.addReservation_lanes (r : Reservation) : (s.addReservation r).lanes = s.lanes := rfl
@[simp] theorem State.addReservation_zones (r : Reservation) : (s.addReservation r).zones = s.zones := rfl
@[simp] theorem State.addReservation_sections (r : Reservation) : (s.addReservation r).sections = s.sections := rfl
@[simp] theorem State.addReservation_gap (r : Reservation) : (s.addReservation r).gap = s.gap := rfl
@[simp] theorem State.addReservation_segregation (r : Reservation) : (s.addReservation r).segregation = s.segregation := rfl
@[simp] theorem State.addReservation_poolInUse (r : Reservation) : (s.addReservation r).poolInUse = s.poolInUse := rfl
@[simp] theorem State.addReservation_account (r : Reservation) : (s.addReservation r).account = s.account := rfl
@[simp] theorem State.addReservation_monitor (r : Reservation) : (s.addReservation r).monitor = s.monitor := rfl
@[simp] theorem State.addReservation_timeout (r : Reservation) : (s.addReservation r).timeout = s.timeout := rfl
@[simp] theorem State.addReservation_waiting (r : Reservation) : (s.addReservation r).waiting = s.waiting := rfl
@[simp] theorem State.addReservation_clock (r : Reservation) : (s.addReservation r).clock = s.clock := rfl
@[simp] theorem State.addReservation_inputs (r : Reservation) : (s.addReservation r).inputs = s.inputs := rfl
@[simp] theorem State.addReservation_control (r : Reservation) : (s.addReservation r).control = s.control := rfl
@[simp] theorem State.addReservation_store (r : Reservation) : (s.addReservation r).store = s.store := rfl
@[simp] theorem State.addReservation_pending (r : Reservation) : (s.addReservation r).pending = s.pending := rfl

/-! `State.withMonitor` -/

@[simp] theorem State.withMonitor_links (m : Monitor) : (s.withMonitor m).links = s.links := rfl
@[simp] theorem State.withMonitor_stations (m : Monitor) : (s.withMonitor m).stations = s.stations := rfl
@[simp] theorem State.withMonitor_register (m : Monitor) : (s.withMonitor m).register = s.register := rfl
@[simp] theorem State.withMonitor_isSealed (m : Monitor) : (s.withMonitor m).isSealed = s.isSealed := rfl
@[simp] theorem State.withMonitor_lanes (m : Monitor) : (s.withMonitor m).lanes = s.lanes := rfl
@[simp] theorem State.withMonitor_zones (m : Monitor) : (s.withMonitor m).zones = s.zones := rfl
@[simp] theorem State.withMonitor_ramps (m : Monitor) : (s.withMonitor m).ramps = s.ramps := rfl
@[simp] theorem State.withMonitor_sections (m : Monitor) : (s.withMonitor m).sections = s.sections := rfl
@[simp] theorem State.withMonitor_gap (m : Monitor) : (s.withMonitor m).gap = s.gap := rfl
@[simp] theorem State.withMonitor_segregation (m : Monitor) : (s.withMonitor m).segregation = s.segregation := rfl
@[simp] theorem State.withMonitor_poolInUse (m : Monitor) : (s.withMonitor m).poolInUse = s.poolInUse := rfl
@[simp] theorem State.withMonitor_account (m : Monitor) : (s.withMonitor m).account = s.account := rfl
@[simp] theorem State.withMonitor_seqNext (m : Monitor) : (s.withMonitor m).seqNext = s.seqNext := rfl
@[simp] theorem State.withMonitor_movements (m : Monitor) : (s.withMonitor m).movements = s.movements := rfl
@[simp] theorem State.withMonitor_timeout (m : Monitor) : (s.withMonitor m).timeout = s.timeout := rfl
@[simp] theorem State.withMonitor_waiting (m : Monitor) : (s.withMonitor m).waiting = s.waiting := rfl
@[simp] theorem State.withMonitor_clock (m : Monitor) : (s.withMonitor m).clock = s.clock := rfl
@[simp] theorem State.withMonitor_inputs (m : Monitor) : (s.withMonitor m).inputs = s.inputs := rfl
@[simp] theorem State.withMonitor_control (m : Monitor) : (s.withMonitor m).control = s.control := rfl
@[simp] theorem State.withMonitor_store (m : Monitor) : (s.withMonitor m).store = s.store := rfl
@[simp] theorem State.withMonitor_pending (m : Monitor) : (s.withMonitor m).pending = s.pending := rfl

/-! `State.setInputs` -/

@[simp] theorem State.setInputs_links (n : Nat) (i : Inputs) : (s.setInputs n i).links = s.links := rfl
@[simp] theorem State.setInputs_stations (n : Nat) (i : Inputs) : (s.setInputs n i).stations = s.stations := rfl
@[simp] theorem State.setInputs_register (n : Nat) (i : Inputs) : (s.setInputs n i).register = s.register := rfl
@[simp] theorem State.setInputs_isSealed (n : Nat) (i : Inputs) : (s.setInputs n i).isSealed = s.isSealed := rfl
@[simp] theorem State.setInputs_lanes (n : Nat) (i : Inputs) : (s.setInputs n i).lanes = s.lanes := rfl
@[simp] theorem State.setInputs_zones (n : Nat) (i : Inputs) : (s.setInputs n i).zones = s.zones := rfl
@[simp] theorem State.setInputs_ramps (n : Nat) (i : Inputs) : (s.setInputs n i).ramps = s.ramps := rfl
@[simp] theorem State.setInputs_sections (n : Nat) (i : Inputs) : (s.setInputs n i).sections = s.sections := rfl
@[simp] theorem State.setInputs_gap (n : Nat) (i : Inputs) : (s.setInputs n i).gap = s.gap := rfl
@[simp] theorem State.setInputs_segregation (n : Nat) (i : Inputs) : (s.setInputs n i).segregation = s.segregation := rfl
@[simp] theorem State.setInputs_poolInUse (n : Nat) (i : Inputs) : (s.setInputs n i).poolInUse = s.poolInUse := rfl
@[simp] theorem State.setInputs_account (n : Nat) (i : Inputs) : (s.setInputs n i).account = s.account := rfl
@[simp] theorem State.setInputs_monitor (n : Nat) (i : Inputs) : (s.setInputs n i).monitor = s.monitor := rfl
@[simp] theorem State.setInputs_seqNext (n : Nat) (i : Inputs) : (s.setInputs n i).seqNext = s.seqNext := rfl
@[simp] theorem State.setInputs_movements (n : Nat) (i : Inputs) : (s.setInputs n i).movements = s.movements := rfl
@[simp] theorem State.setInputs_timeout (n : Nat) (i : Inputs) : (s.setInputs n i).timeout = s.timeout := rfl
@[simp] theorem State.setInputs_waiting (n : Nat) (i : Inputs) : (s.setInputs n i).waiting = s.waiting := rfl
@[simp] theorem State.setInputs_clock (n : Nat) (i : Inputs) : (s.setInputs n i).clock = s.clock := rfl
@[simp] theorem State.setInputs_control (n : Nat) (i : Inputs) : (s.setInputs n i).control = s.control := rfl
@[simp] theorem State.setInputs_store (n : Nat) (i : Inputs) : (s.setInputs n i).store = s.store := rfl
@[simp] theorem State.setInputs_pending (n : Nat) (i : Inputs) : (s.setInputs n i).pending = s.pending := rfl

/-! `State.setPowerFail` -/

@[simp] theorem State.setPowerFail_links (b : Bool) : (s.setPowerFail b).links = s.links := rfl
@[simp] theorem State.setPowerFail_stations (b : Bool) : (s.setPowerFail b).stations = s.stations := rfl
@[simp] theorem State.setPowerFail_register (b : Bool) : (s.setPowerFail b).register = s.register := rfl
@[simp] theorem State.setPowerFail_isSealed (b : Bool) : (s.setPowerFail b).isSealed = s.isSealed := rfl
@[simp] theorem State.setPowerFail_lanes (b : Bool) : (s.setPowerFail b).lanes = s.lanes := rfl
@[simp] theorem State.setPowerFail_zones (b : Bool) : (s.setPowerFail b).zones = s.zones := rfl
@[simp] theorem State.setPowerFail_ramps (b : Bool) : (s.setPowerFail b).ramps = s.ramps := rfl
@[simp] theorem State.setPowerFail_sections (b : Bool) : (s.setPowerFail b).sections = s.sections := rfl
@[simp] theorem State.setPowerFail_gap (b : Bool) : (s.setPowerFail b).gap = s.gap := rfl
@[simp] theorem State.setPowerFail_segregation (b : Bool) : (s.setPowerFail b).segregation = s.segregation := rfl
@[simp] theorem State.setPowerFail_poolInUse (b : Bool) : (s.setPowerFail b).poolInUse = s.poolInUse := rfl
@[simp] theorem State.setPowerFail_account (b : Bool) : (s.setPowerFail b).account = s.account := rfl
@[simp] theorem State.setPowerFail_monitor (b : Bool) : (s.setPowerFail b).monitor = s.monitor := rfl
@[simp] theorem State.setPowerFail_seqNext (b : Bool) : (s.setPowerFail b).seqNext = s.seqNext := rfl
@[simp] theorem State.setPowerFail_movements (b : Bool) : (s.setPowerFail b).movements = s.movements := rfl
@[simp] theorem State.setPowerFail_timeout (b : Bool) : (s.setPowerFail b).timeout = s.timeout := rfl
@[simp] theorem State.setPowerFail_waiting (b : Bool) : (s.setPowerFail b).waiting = s.waiting := rfl
@[simp] theorem State.setPowerFail_clock (b : Bool) : (s.setPowerFail b).clock = s.clock := rfl
@[simp] theorem State.setPowerFail_inputs (b : Bool) : (s.setPowerFail b).inputs = s.inputs := rfl
@[simp] theorem State.setPowerFail_store (b : Bool) : (s.setPowerFail b).store = s.store := rfl
@[simp] theorem State.setPowerFail_pending (b : Bool) : (s.setPowerFail b).pending = s.pending := rfl

/-! `State.opPlace` -/

@[simp] theorem State.opPlace_links (n : Nat) (e : Entry) (d : Int) (z : Option Nat) : (s.opPlace n e d z).links = s.links := rfl
@[simp] theorem State.opPlace_stations (n : Nat) (e : Entry) (d : Int) (z : Option Nat) : (s.opPlace n e d z).stations = s.stations := rfl
@[simp] theorem State.opPlace_register (n : Nat) (e : Entry) (d : Int) (z : Option Nat) : (s.opPlace n e d z).register = s.register := rfl
@[simp] theorem State.opPlace_isSealed (n : Nat) (e : Entry) (d : Int) (z : Option Nat) : (s.opPlace n e d z).isSealed = s.isSealed := rfl
@[simp] theorem State.opPlace_ramps (n : Nat) (e : Entry) (d : Int) (z : Option Nat) : (s.opPlace n e d z).ramps = s.ramps := rfl
@[simp] theorem State.opPlace_sections (n : Nat) (e : Entry) (d : Int) (z : Option Nat) : (s.opPlace n e d z).sections = s.sections := rfl
@[simp] theorem State.opPlace_gap (n : Nat) (e : Entry) (d : Int) (z : Option Nat) : (s.opPlace n e d z).gap = s.gap := rfl
@[simp] theorem State.opPlace_segregation (n : Nat) (e : Entry) (d : Int) (z : Option Nat) : (s.opPlace n e d z).segregation = s.segregation := rfl
@[simp] theorem State.opPlace_monitor (n : Nat) (e : Entry) (d : Int) (z : Option Nat) : (s.opPlace n e d z).monitor = s.monitor := rfl
@[simp] theorem State.opPlace_seqNext (n : Nat) (e : Entry) (d : Int) (z : Option Nat) : (s.opPlace n e d z).seqNext = s.seqNext := rfl
@[simp] theorem State.opPlace_movements (n : Nat) (e : Entry) (d : Int) (z : Option Nat) : (s.opPlace n e d z).movements = s.movements := rfl
@[simp] theorem State.opPlace_timeout (n : Nat) (e : Entry) (d : Int) (z : Option Nat) : (s.opPlace n e d z).timeout = s.timeout := rfl
@[simp] theorem State.opPlace_waiting (n : Nat) (e : Entry) (d : Int) (z : Option Nat) : (s.opPlace n e d z).waiting = s.waiting := rfl
@[simp] theorem State.opPlace_clock (n : Nat) (e : Entry) (d : Int) (z : Option Nat) : (s.opPlace n e d z).clock = s.clock := rfl
@[simp] theorem State.opPlace_inputs (n : Nat) (e : Entry) (d : Int) (z : Option Nat) : (s.opPlace n e d z).inputs = s.inputs := rfl
@[simp] theorem State.opPlace_control (n : Nat) (e : Entry) (d : Int) (z : Option Nat) : (s.opPlace n e d z).control = s.control := rfl
@[simp] theorem State.opPlace_store (n : Nat) (e : Entry) (d : Int) (z : Option Nat) : (s.opPlace n e d z).store = s.store := rfl
@[simp] theorem State.opPlace_pending (n : Nat) (e : Entry) (d : Int) (z : Option Nat) : (s.opPlace n e d z).pending = s.pending := rfl

/-! `State.opStow` -/

@[simp] theorem State.opStow_links (n : Nat) (d : Int) (z : Option Nat) : (s.opStow n d z).links = s.links := rfl
@[simp] theorem State.opStow_stations (n : Nat) (d : Int) (z : Option Nat) : (s.opStow n d z).stations = s.stations := rfl
@[simp] theorem State.opStow_register (n : Nat) (d : Int) (z : Option Nat) : (s.opStow n d z).register = s.register := rfl
@[simp] theorem State.opStow_isSealed (n : Nat) (d : Int) (z : Option Nat) : (s.opStow n d z).isSealed = s.isSealed := rfl
@[simp] theorem State.opStow_ramps (n : Nat) (d : Int) (z : Option Nat) : (s.opStow n d z).ramps = s.ramps := rfl
@[simp] theorem State.opStow_sections (n : Nat) (d : Int) (z : Option Nat) : (s.opStow n d z).sections = s.sections := rfl
@[simp] theorem State.opStow_gap (n : Nat) (d : Int) (z : Option Nat) : (s.opStow n d z).gap = s.gap := rfl
@[simp] theorem State.opStow_segregation (n : Nat) (d : Int) (z : Option Nat) : (s.opStow n d z).segregation = s.segregation := rfl
@[simp] theorem State.opStow_poolInUse (n : Nat) (d : Int) (z : Option Nat) : (s.opStow n d z).poolInUse = s.poolInUse := rfl
@[simp] theorem State.opStow_monitor (n : Nat) (d : Int) (z : Option Nat) : (s.opStow n d z).monitor = s.monitor := rfl
@[simp] theorem State.opStow_seqNext (n : Nat) (d : Int) (z : Option Nat) : (s.opStow n d z).seqNext = s.seqNext := rfl
@[simp] theorem State.opStow_movements (n : Nat) (d : Int) (z : Option Nat) : (s.opStow n d z).movements = s.movements := rfl
@[simp] theorem State.opStow_timeout (n : Nat) (d : Int) (z : Option Nat) : (s.opStow n d z).timeout = s.timeout := rfl
@[simp] theorem State.opStow_waiting (n : Nat) (d : Int) (z : Option Nat) : (s.opStow n d z).waiting = s.waiting := rfl
@[simp] theorem State.opStow_clock (n : Nat) (d : Int) (z : Option Nat) : (s.opStow n d z).clock = s.clock := rfl
@[simp] theorem State.opStow_inputs (n : Nat) (d : Int) (z : Option Nat) : (s.opStow n d z).inputs = s.inputs := rfl
@[simp] theorem State.opStow_control (n : Nat) (d : Int) (z : Option Nat) : (s.opStow n d z).control = s.control := rfl
@[simp] theorem State.opStow_store (n : Nat) (d : Int) (z : Option Nat) : (s.opStow n d z).store = s.store := rfl
@[simp] theorem State.opStow_pending (n : Nat) (d : Int) (z : Option Nat) : (s.opStow n d z).pending = s.pending := rfl

/-! `State.opBackOut` -/

@[simp] theorem State.opBackOut_links (n : Nat) (d : Int) (z : Option Nat) : (s.opBackOut n d z).links = s.links := rfl
@[simp] theorem State.opBackOut_stations (n : Nat) (d : Int) (z : Option Nat) : (s.opBackOut n d z).stations = s.stations := rfl
@[simp] theorem State.opBackOut_register (n : Nat) (d : Int) (z : Option Nat) : (s.opBackOut n d z).register = s.register := rfl
@[simp] theorem State.opBackOut_isSealed (n : Nat) (d : Int) (z : Option Nat) : (s.opBackOut n d z).isSealed = s.isSealed := rfl
@[simp] theorem State.opBackOut_ramps (n : Nat) (d : Int) (z : Option Nat) : (s.opBackOut n d z).ramps = s.ramps := rfl
@[simp] theorem State.opBackOut_sections (n : Nat) (d : Int) (z : Option Nat) : (s.opBackOut n d z).sections = s.sections := rfl
@[simp] theorem State.opBackOut_gap (n : Nat) (d : Int) (z : Option Nat) : (s.opBackOut n d z).gap = s.gap := rfl
@[simp] theorem State.opBackOut_segregation (n : Nat) (d : Int) (z : Option Nat) : (s.opBackOut n d z).segregation = s.segregation := rfl
@[simp] theorem State.opBackOut_monitor (n : Nat) (d : Int) (z : Option Nat) : (s.opBackOut n d z).monitor = s.monitor := rfl
@[simp] theorem State.opBackOut_seqNext (n : Nat) (d : Int) (z : Option Nat) : (s.opBackOut n d z).seqNext = s.seqNext := rfl
@[simp] theorem State.opBackOut_movements (n : Nat) (d : Int) (z : Option Nat) : (s.opBackOut n d z).movements = s.movements := rfl
@[simp] theorem State.opBackOut_timeout (n : Nat) (d : Int) (z : Option Nat) : (s.opBackOut n d z).timeout = s.timeout := rfl
@[simp] theorem State.opBackOut_waiting (n : Nat) (d : Int) (z : Option Nat) : (s.opBackOut n d z).waiting = s.waiting := rfl
@[simp] theorem State.opBackOut_clock (n : Nat) (d : Int) (z : Option Nat) : (s.opBackOut n d z).clock = s.clock := rfl
@[simp] theorem State.opBackOut_inputs (n : Nat) (d : Int) (z : Option Nat) : (s.opBackOut n d z).inputs = s.inputs := rfl
@[simp] theorem State.opBackOut_control (n : Nat) (d : Int) (z : Option Nat) : (s.opBackOut n d z).control = s.control := rfl
@[simp] theorem State.opBackOut_store (n : Nat) (d : Int) (z : Option Nat) : (s.opBackOut n d z).store = s.store := rfl
@[simp] theorem State.opBackOut_pending (n : Nat) (d : Int) (z : Option Nat) : (s.opBackOut n d z).pending = s.pending := rfl

/-! `State.opLapseLoad` -/

@[simp] theorem State.opLapseLoad_links (n r : Nat) (d : Int) (z : Option Nat) : (s.opLapseLoad n r d z).links = s.links := rfl
@[simp] theorem State.opLapseLoad_stations (n r : Nat) (d : Int) (z : Option Nat) : (s.opLapseLoad n r d z).stations = s.stations := rfl
@[simp] theorem State.opLapseLoad_register (n r : Nat) (d : Int) (z : Option Nat) : (s.opLapseLoad n r d z).register = s.register := rfl
@[simp] theorem State.opLapseLoad_isSealed (n r : Nat) (d : Int) (z : Option Nat) : (s.opLapseLoad n r d z).isSealed = s.isSealed := rfl
@[simp] theorem State.opLapseLoad_zones (n r : Nat) (d : Int) (z : Option Nat) : (s.opLapseLoad n r d z).zones = s.zones := rfl
@[simp] theorem State.opLapseLoad_ramps (n r : Nat) (d : Int) (z : Option Nat) : (s.opLapseLoad n r d z).ramps = s.ramps := rfl
@[simp] theorem State.opLapseLoad_sections (n r : Nat) (d : Int) (z : Option Nat) : (s.opLapseLoad n r d z).sections = s.sections := rfl
@[simp] theorem State.opLapseLoad_gap (n r : Nat) (d : Int) (z : Option Nat) : (s.opLapseLoad n r d z).gap = s.gap := rfl
@[simp] theorem State.opLapseLoad_segregation (n r : Nat) (d : Int) (z : Option Nat) : (s.opLapseLoad n r d z).segregation = s.segregation := rfl
@[simp] theorem State.opLapseLoad_poolInUse (n r : Nat) (d : Int) (z : Option Nat) : (s.opLapseLoad n r d z).poolInUse = s.poolInUse := rfl
@[simp] theorem State.opLapseLoad_account (n r : Nat) (d : Int) (z : Option Nat) : (s.opLapseLoad n r d z).account = s.account := rfl
@[simp] theorem State.opLapseLoad_monitor (n r : Nat) (d : Int) (z : Option Nat) : (s.opLapseLoad n r d z).monitor = s.monitor := rfl
@[simp] theorem State.opLapseLoad_seqNext (n r : Nat) (d : Int) (z : Option Nat) : (s.opLapseLoad n r d z).seqNext = s.seqNext := rfl
@[simp] theorem State.opLapseLoad_movements (n r : Nat) (d : Int) (z : Option Nat) : (s.opLapseLoad n r d z).movements = s.movements := rfl
@[simp] theorem State.opLapseLoad_timeout (n r : Nat) (d : Int) (z : Option Nat) : (s.opLapseLoad n r d z).timeout = s.timeout := rfl
@[simp] theorem State.opLapseLoad_waiting (n r : Nat) (d : Int) (z : Option Nat) : (s.opLapseLoad n r d z).waiting = s.waiting := rfl
@[simp] theorem State.opLapseLoad_clock (n r : Nat) (d : Int) (z : Option Nat) : (s.opLapseLoad n r d z).clock = s.clock := rfl
@[simp] theorem State.opLapseLoad_inputs (n r : Nat) (d : Int) (z : Option Nat) : (s.opLapseLoad n r d z).inputs = s.inputs := rfl
@[simp] theorem State.opLapseLoad_control (n r : Nat) (d : Int) (z : Option Nat) : (s.opLapseLoad n r d z).control = s.control := rfl
@[simp] theorem State.opLapseLoad_store (n r : Nat) (d : Int) (z : Option Nat) : (s.opLapseLoad n r d z).store = s.store := rfl
@[simp] theorem State.opLapseLoad_pending (n r : Nat) (d : Int) (z : Option Nat) : (s.opLapseLoad n r d z).pending = s.pending := rfl

/-! `State.opStowLate` -/

@[simp] theorem State.opStowLate_links (n : Nat) (c : CheckRecord) (u : UnitBody) : (s.opStowLate n c u).links = s.links := rfl
@[simp] theorem State.opStowLate_stations (n : Nat) (c : CheckRecord) (u : UnitBody) : (s.opStowLate n c u).stations = s.stations := rfl
@[simp] theorem State.opStowLate_register (n : Nat) (c : CheckRecord) (u : UnitBody) : (s.opStowLate n c u).register = s.register := rfl
@[simp] theorem State.opStowLate_isSealed (n : Nat) (c : CheckRecord) (u : UnitBody) : (s.opStowLate n c u).isSealed = s.isSealed := rfl
@[simp] theorem State.opStowLate_ramps (n : Nat) (c : CheckRecord) (u : UnitBody) : (s.opStowLate n c u).ramps = s.ramps := rfl
@[simp] theorem State.opStowLate_sections (n : Nat) (c : CheckRecord) (u : UnitBody) : (s.opStowLate n c u).sections = s.sections := rfl
@[simp] theorem State.opStowLate_gap (n : Nat) (c : CheckRecord) (u : UnitBody) : (s.opStowLate n c u).gap = s.gap := rfl
@[simp] theorem State.opStowLate_segregation (n : Nat) (c : CheckRecord) (u : UnitBody) : (s.opStowLate n c u).segregation = s.segregation := rfl
@[simp] theorem State.opStowLate_poolInUse (n : Nat) (c : CheckRecord) (u : UnitBody) : (s.opStowLate n c u).poolInUse = s.poolInUse := rfl
@[simp] theorem State.opStowLate_monitor (n : Nat) (c : CheckRecord) (u : UnitBody) : (s.opStowLate n c u).monitor = s.monitor := rfl
@[simp] theorem State.opStowLate_seqNext (n : Nat) (c : CheckRecord) (u : UnitBody) : (s.opStowLate n c u).seqNext = s.seqNext := rfl
@[simp] theorem State.opStowLate_movements (n : Nat) (c : CheckRecord) (u : UnitBody) : (s.opStowLate n c u).movements = s.movements := rfl
@[simp] theorem State.opStowLate_timeout (n : Nat) (c : CheckRecord) (u : UnitBody) : (s.opStowLate n c u).timeout = s.timeout := rfl
@[simp] theorem State.opStowLate_waiting (n : Nat) (c : CheckRecord) (u : UnitBody) : (s.opStowLate n c u).waiting = s.waiting := rfl
@[simp] theorem State.opStowLate_clock (n : Nat) (c : CheckRecord) (u : UnitBody) : (s.opStowLate n c u).clock = s.clock := rfl
@[simp] theorem State.opStowLate_inputs (n : Nat) (c : CheckRecord) (u : UnitBody) : (s.opStowLate n c u).inputs = s.inputs := rfl
@[simp] theorem State.opStowLate_control (n : Nat) (c : CheckRecord) (u : UnitBody) : (s.opStowLate n c u).control = s.control := rfl
@[simp] theorem State.opStowLate_store (n : Nat) (c : CheckRecord) (u : UnitBody) : (s.opStowLate n c u).store = s.store := rfl
@[simp] theorem State.opStowLate_pending (n : Nat) (c : CheckRecord) (u : UnitBody) : (s.opStowLate n c u).pending = s.pending := rfl

/-! `State.opDropLoadCheck` -/

@[simp] theorem State.opDropLoadCheck_links (n : Nat) (c : CheckRecord) (u : UnitBody) : (s.opDropLoadCheck n c u).links = s.links := rfl
@[simp] theorem State.opDropLoadCheck_stations (n : Nat) (c : CheckRecord) (u : UnitBody) : (s.opDropLoadCheck n c u).stations = s.stations := rfl
@[simp] theorem State.opDropLoadCheck_register (n : Nat) (c : CheckRecord) (u : UnitBody) : (s.opDropLoadCheck n c u).register = s.register := rfl
@[simp] theorem State.opDropLoadCheck_isSealed (n : Nat) (c : CheckRecord) (u : UnitBody) : (s.opDropLoadCheck n c u).isSealed = s.isSealed := rfl
@[simp] theorem State.opDropLoadCheck_ramps (n : Nat) (c : CheckRecord) (u : UnitBody) : (s.opDropLoadCheck n c u).ramps = s.ramps := rfl
@[simp] theorem State.opDropLoadCheck_sections (n : Nat) (c : CheckRecord) (u : UnitBody) : (s.opDropLoadCheck n c u).sections = s.sections := rfl
@[simp] theorem State.opDropLoadCheck_gap (n : Nat) (c : CheckRecord) (u : UnitBody) : (s.opDropLoadCheck n c u).gap = s.gap := rfl
@[simp] theorem State.opDropLoadCheck_segregation (n : Nat) (c : CheckRecord) (u : UnitBody) : (s.opDropLoadCheck n c u).segregation = s.segregation := rfl
@[simp] theorem State.opDropLoadCheck_monitor (n : Nat) (c : CheckRecord) (u : UnitBody) : (s.opDropLoadCheck n c u).monitor = s.monitor := rfl
@[simp] theorem State.opDropLoadCheck_seqNext (n : Nat) (c : CheckRecord) (u : UnitBody) : (s.opDropLoadCheck n c u).seqNext = s.seqNext := rfl
@[simp] theorem State.opDropLoadCheck_movements (n : Nat) (c : CheckRecord) (u : UnitBody) : (s.opDropLoadCheck n c u).movements = s.movements := rfl
@[simp] theorem State.opDropLoadCheck_timeout (n : Nat) (c : CheckRecord) (u : UnitBody) : (s.opDropLoadCheck n c u).timeout = s.timeout := rfl
@[simp] theorem State.opDropLoadCheck_waiting (n : Nat) (c : CheckRecord) (u : UnitBody) : (s.opDropLoadCheck n c u).waiting = s.waiting := rfl
@[simp] theorem State.opDropLoadCheck_clock (n : Nat) (c : CheckRecord) (u : UnitBody) : (s.opDropLoadCheck n c u).clock = s.clock := rfl
@[simp] theorem State.opDropLoadCheck_inputs (n : Nat) (c : CheckRecord) (u : UnitBody) : (s.opDropLoadCheck n c u).inputs = s.inputs := rfl
@[simp] theorem State.opDropLoadCheck_control (n : Nat) (c : CheckRecord) (u : UnitBody) : (s.opDropLoadCheck n c u).control = s.control := rfl
@[simp] theorem State.opDropLoadCheck_store (n : Nat) (c : CheckRecord) (u : UnitBody) : (s.opDropLoadCheck n c u).store = s.store := rfl
@[simp] theorem State.opDropLoadCheck_pending (n : Nat) (c : CheckRecord) (u : UnitBody) : (s.opDropLoadCheck n c u).pending = s.pending := rfl

/-! `State.opRelease` -/

@[simp] theorem State.opRelease_links (n : Nat) (d : Int) : (s.opRelease n d).links = s.links := rfl
@[simp] theorem State.opRelease_stations (n : Nat) (d : Int) : (s.opRelease n d).stations = s.stations := rfl
@[simp] theorem State.opRelease_register (n : Nat) (d : Int) : (s.opRelease n d).register = s.register := rfl
@[simp] theorem State.opRelease_isSealed (n : Nat) (d : Int) : (s.opRelease n d).isSealed = s.isSealed := rfl
@[simp] theorem State.opRelease_zones (n : Nat) (d : Int) : (s.opRelease n d).zones = s.zones := rfl
@[simp] theorem State.opRelease_ramps (n : Nat) (d : Int) : (s.opRelease n d).ramps = s.ramps := rfl
@[simp] theorem State.opRelease_sections (n : Nat) (d : Int) : (s.opRelease n d).sections = s.sections := rfl
@[simp] theorem State.opRelease_gap (n : Nat) (d : Int) : (s.opRelease n d).gap = s.gap := rfl
@[simp] theorem State.opRelease_segregation (n : Nat) (d : Int) : (s.opRelease n d).segregation = s.segregation := rfl
@[simp] theorem State.opRelease_poolInUse (n : Nat) (d : Int) : (s.opRelease n d).poolInUse = s.poolInUse := rfl
@[simp] theorem State.opRelease_monitor (n : Nat) (d : Int) : (s.opRelease n d).monitor = s.monitor := rfl
@[simp] theorem State.opRelease_seqNext (n : Nat) (d : Int) : (s.opRelease n d).seqNext = s.seqNext := rfl
@[simp] theorem State.opRelease_movements (n : Nat) (d : Int) : (s.opRelease n d).movements = s.movements := rfl
@[simp] theorem State.opRelease_timeout (n : Nat) (d : Int) : (s.opRelease n d).timeout = s.timeout := rfl
@[simp] theorem State.opRelease_waiting (n : Nat) (d : Int) : (s.opRelease n d).waiting = s.waiting := rfl
@[simp] theorem State.opRelease_clock (n : Nat) (d : Int) : (s.opRelease n d).clock = s.clock := rfl
@[simp] theorem State.opRelease_inputs (n : Nat) (d : Int) : (s.opRelease n d).inputs = s.inputs := rfl
@[simp] theorem State.opRelease_control (n : Nat) (d : Int) : (s.opRelease n d).control = s.control := rfl
@[simp] theorem State.opRelease_store (n : Nat) (d : Int) : (s.opRelease n d).store = s.store := rfl
@[simp] theorem State.opRelease_pending (n : Nat) (d : Int) : (s.opRelease n d).pending = s.pending := rfl

/-! `State.opOffload` -/

@[simp] theorem State.opOffload_links (n : Nat) (d : Int) (z : Option Nat) : (s.opOffload n d z).links = s.links := rfl
@[simp] theorem State.opOffload_stations (n : Nat) (d : Int) (z : Option Nat) : (s.opOffload n d z).stations = s.stations := rfl
@[simp] theorem State.opOffload_register (n : Nat) (d : Int) (z : Option Nat) : (s.opOffload n d z).register = s.register := rfl
@[simp] theorem State.opOffload_isSealed (n : Nat) (d : Int) (z : Option Nat) : (s.opOffload n d z).isSealed = s.isSealed := rfl
@[simp] theorem State.opOffload_ramps (n : Nat) (d : Int) (z : Option Nat) : (s.opOffload n d z).ramps = s.ramps := rfl
@[simp] theorem State.opOffload_sections (n : Nat) (d : Int) (z : Option Nat) : (s.opOffload n d z).sections = s.sections := rfl
@[simp] theorem State.opOffload_gap (n : Nat) (d : Int) (z : Option Nat) : (s.opOffload n d z).gap = s.gap := rfl
@[simp] theorem State.opOffload_segregation (n : Nat) (d : Int) (z : Option Nat) : (s.opOffload n d z).segregation = s.segregation := rfl
@[simp] theorem State.opOffload_monitor (n : Nat) (d : Int) (z : Option Nat) : (s.opOffload n d z).monitor = s.monitor := rfl
@[simp] theorem State.opOffload_seqNext (n : Nat) (d : Int) (z : Option Nat) : (s.opOffload n d z).seqNext = s.seqNext := rfl
@[simp] theorem State.opOffload_movements (n : Nat) (d : Int) (z : Option Nat) : (s.opOffload n d z).movements = s.movements := rfl
@[simp] theorem State.opOffload_timeout (n : Nat) (d : Int) (z : Option Nat) : (s.opOffload n d z).timeout = s.timeout := rfl
@[simp] theorem State.opOffload_waiting (n : Nat) (d : Int) (z : Option Nat) : (s.opOffload n d z).waiting = s.waiting := rfl
@[simp] theorem State.opOffload_clock (n : Nat) (d : Int) (z : Option Nat) : (s.opOffload n d z).clock = s.clock := rfl
@[simp] theorem State.opOffload_inputs (n : Nat) (d : Int) (z : Option Nat) : (s.opOffload n d z).inputs = s.inputs := rfl
@[simp] theorem State.opOffload_control (n : Nat) (d : Int) (z : Option Nat) : (s.opOffload n d z).control = s.control := rfl
@[simp] theorem State.opOffload_store (n : Nat) (d : Int) (z : Option Nat) : (s.opOffload n d z).store = s.store := rfl
@[simp] theorem State.opOffload_pending (n : Nat) (d : Int) (z : Option Nat) : (s.opOffload n d z).pending = s.pending := rfl

/-! `State.opKeep` -/

@[simp] theorem State.opKeep_links (n : Nat) (d : Int) : (s.opKeep n d).links = s.links := rfl
@[simp] theorem State.opKeep_stations (n : Nat) (d : Int) : (s.opKeep n d).stations = s.stations := rfl
@[simp] theorem State.opKeep_register (n : Nat) (d : Int) : (s.opKeep n d).register = s.register := rfl
@[simp] theorem State.opKeep_isSealed (n : Nat) (d : Int) : (s.opKeep n d).isSealed = s.isSealed := rfl
@[simp] theorem State.opKeep_zones (n : Nat) (d : Int) : (s.opKeep n d).zones = s.zones := rfl
@[simp] theorem State.opKeep_ramps (n : Nat) (d : Int) : (s.opKeep n d).ramps = s.ramps := rfl
@[simp] theorem State.opKeep_sections (n : Nat) (d : Int) : (s.opKeep n d).sections = s.sections := rfl
@[simp] theorem State.opKeep_gap (n : Nat) (d : Int) : (s.opKeep n d).gap = s.gap := rfl
@[simp] theorem State.opKeep_segregation (n : Nat) (d : Int) : (s.opKeep n d).segregation = s.segregation := rfl
@[simp] theorem State.opKeep_poolInUse (n : Nat) (d : Int) : (s.opKeep n d).poolInUse = s.poolInUse := rfl
@[simp] theorem State.opKeep_monitor (n : Nat) (d : Int) : (s.opKeep n d).monitor = s.monitor := rfl
@[simp] theorem State.opKeep_seqNext (n : Nat) (d : Int) : (s.opKeep n d).seqNext = s.seqNext := rfl
@[simp] theorem State.opKeep_movements (n : Nat) (d : Int) : (s.opKeep n d).movements = s.movements := rfl
@[simp] theorem State.opKeep_timeout (n : Nat) (d : Int) : (s.opKeep n d).timeout = s.timeout := rfl
@[simp] theorem State.opKeep_waiting (n : Nat) (d : Int) : (s.opKeep n d).waiting = s.waiting := rfl
@[simp] theorem State.opKeep_clock (n : Nat) (d : Int) : (s.opKeep n d).clock = s.clock := rfl
@[simp] theorem State.opKeep_inputs (n : Nat) (d : Int) : (s.opKeep n d).inputs = s.inputs := rfl
@[simp] theorem State.opKeep_control (n : Nat) (d : Int) : (s.opKeep n d).control = s.control := rfl
@[simp] theorem State.opKeep_store (n : Nat) (d : Int) : (s.opKeep n d).store = s.store := rfl
@[simp] theorem State.opKeep_pending (n : Nat) (d : Int) : (s.opKeep n d).pending = s.pending := rfl

/-! `State.opLapseDischarge` -/

@[simp] theorem State.opLapseDischarge_links (n r : Nat) (d : Int) (z : Option Nat) : (s.opLapseDischarge n r d z).links = s.links := rfl
@[simp] theorem State.opLapseDischarge_stations (n r : Nat) (d : Int) (z : Option Nat) : (s.opLapseDischarge n r d z).stations = s.stations := rfl
@[simp] theorem State.opLapseDischarge_register (n r : Nat) (d : Int) (z : Option Nat) : (s.opLapseDischarge n r d z).register = s.register := rfl
@[simp] theorem State.opLapseDischarge_isSealed (n r : Nat) (d : Int) (z : Option Nat) : (s.opLapseDischarge n r d z).isSealed = s.isSealed := rfl
@[simp] theorem State.opLapseDischarge_zones (n r : Nat) (d : Int) (z : Option Nat) : (s.opLapseDischarge n r d z).zones = s.zones := rfl
@[simp] theorem State.opLapseDischarge_ramps (n r : Nat) (d : Int) (z : Option Nat) : (s.opLapseDischarge n r d z).ramps = s.ramps := rfl
@[simp] theorem State.opLapseDischarge_sections (n r : Nat) (d : Int) (z : Option Nat) : (s.opLapseDischarge n r d z).sections = s.sections := rfl
@[simp] theorem State.opLapseDischarge_gap (n r : Nat) (d : Int) (z : Option Nat) : (s.opLapseDischarge n r d z).gap = s.gap := rfl
@[simp] theorem State.opLapseDischarge_segregation (n r : Nat) (d : Int) (z : Option Nat) : (s.opLapseDischarge n r d z).segregation = s.segregation := rfl
@[simp] theorem State.opLapseDischarge_poolInUse (n r : Nat) (d : Int) (z : Option Nat) : (s.opLapseDischarge n r d z).poolInUse = s.poolInUse := rfl
@[simp] theorem State.opLapseDischarge_account (n r : Nat) (d : Int) (z : Option Nat) : (s.opLapseDischarge n r d z).account = s.account := rfl
@[simp] theorem State.opLapseDischarge_monitor (n r : Nat) (d : Int) (z : Option Nat) : (s.opLapseDischarge n r d z).monitor = s.monitor := rfl
@[simp] theorem State.opLapseDischarge_seqNext (n r : Nat) (d : Int) (z : Option Nat) : (s.opLapseDischarge n r d z).seqNext = s.seqNext := rfl
@[simp] theorem State.opLapseDischarge_movements (n r : Nat) (d : Int) (z : Option Nat) : (s.opLapseDischarge n r d z).movements = s.movements := rfl
@[simp] theorem State.opLapseDischarge_timeout (n r : Nat) (d : Int) (z : Option Nat) : (s.opLapseDischarge n r d z).timeout = s.timeout := rfl
@[simp] theorem State.opLapseDischarge_waiting (n r : Nat) (d : Int) (z : Option Nat) : (s.opLapseDischarge n r d z).waiting = s.waiting := rfl
@[simp] theorem State.opLapseDischarge_clock (n r : Nat) (d : Int) (z : Option Nat) : (s.opLapseDischarge n r d z).clock = s.clock := rfl
@[simp] theorem State.opLapseDischarge_inputs (n r : Nat) (d : Int) (z : Option Nat) : (s.opLapseDischarge n r d z).inputs = s.inputs := rfl
@[simp] theorem State.opLapseDischarge_control (n r : Nat) (d : Int) (z : Option Nat) : (s.opLapseDischarge n r d z).control = s.control := rfl
@[simp] theorem State.opLapseDischarge_store (n r : Nat) (d : Int) (z : Option Nat) : (s.opLapseDischarge n r d z).store = s.store := rfl
@[simp] theorem State.opLapseDischarge_pending (n r : Nat) (d : Int) (z : Option Nat) : (s.opLapseDischarge n r d z).pending = s.pending := rfl

/-! `State.opOffloadLate` -/

@[simp] theorem State.opOffloadLate_links (n : Nat) (c : CheckRecord) : (s.opOffloadLate n c).links = s.links := rfl
@[simp] theorem State.opOffloadLate_stations (n : Nat) (c : CheckRecord) : (s.opOffloadLate n c).stations = s.stations := rfl
@[simp] theorem State.opOffloadLate_register (n : Nat) (c : CheckRecord) : (s.opOffloadLate n c).register = s.register := rfl
@[simp] theorem State.opOffloadLate_isSealed (n : Nat) (c : CheckRecord) : (s.opOffloadLate n c).isSealed = s.isSealed := rfl
@[simp] theorem State.opOffloadLate_ramps (n : Nat) (c : CheckRecord) : (s.opOffloadLate n c).ramps = s.ramps := rfl
@[simp] theorem State.opOffloadLate_sections (n : Nat) (c : CheckRecord) : (s.opOffloadLate n c).sections = s.sections := rfl
@[simp] theorem State.opOffloadLate_gap (n : Nat) (c : CheckRecord) : (s.opOffloadLate n c).gap = s.gap := rfl
@[simp] theorem State.opOffloadLate_segregation (n : Nat) (c : CheckRecord) : (s.opOffloadLate n c).segregation = s.segregation := rfl
@[simp] theorem State.opOffloadLate_monitor (n : Nat) (c : CheckRecord) : (s.opOffloadLate n c).monitor = s.monitor := rfl
@[simp] theorem State.opOffloadLate_seqNext (n : Nat) (c : CheckRecord) : (s.opOffloadLate n c).seqNext = s.seqNext := rfl
@[simp] theorem State.opOffloadLate_movements (n : Nat) (c : CheckRecord) : (s.opOffloadLate n c).movements = s.movements := rfl
@[simp] theorem State.opOffloadLate_timeout (n : Nat) (c : CheckRecord) : (s.opOffloadLate n c).timeout = s.timeout := rfl
@[simp] theorem State.opOffloadLate_waiting (n : Nat) (c : CheckRecord) : (s.opOffloadLate n c).waiting = s.waiting := rfl
@[simp] theorem State.opOffloadLate_clock (n : Nat) (c : CheckRecord) : (s.opOffloadLate n c).clock = s.clock := rfl
@[simp] theorem State.opOffloadLate_inputs (n : Nat) (c : CheckRecord) : (s.opOffloadLate n c).inputs = s.inputs := rfl
@[simp] theorem State.opOffloadLate_control (n : Nat) (c : CheckRecord) : (s.opOffloadLate n c).control = s.control := rfl
@[simp] theorem State.opOffloadLate_store (n : Nat) (c : CheckRecord) : (s.opOffloadLate n c).store = s.store := rfl
@[simp] theorem State.opOffloadLate_pending (n : Nat) (c : CheckRecord) : (s.opOffloadLate n c).pending = s.pending := rfl

/-! `State.opDropDischargeCheck` -/

@[simp] theorem State.opDropDischargeCheck_links (n : Nat) (c : CheckRecord) : (s.opDropDischargeCheck n c).links = s.links := rfl
@[simp] theorem State.opDropDischargeCheck_stations (n : Nat) (c : CheckRecord) : (s.opDropDischargeCheck n c).stations = s.stations := rfl
@[simp] theorem State.opDropDischargeCheck_register (n : Nat) (c : CheckRecord) : (s.opDropDischargeCheck n c).register = s.register := rfl
@[simp] theorem State.opDropDischargeCheck_isSealed (n : Nat) (c : CheckRecord) : (s.opDropDischargeCheck n c).isSealed = s.isSealed := rfl
@[simp] theorem State.opDropDischargeCheck_zones (n : Nat) (c : CheckRecord) : (s.opDropDischargeCheck n c).zones = s.zones := rfl
@[simp] theorem State.opDropDischargeCheck_ramps (n : Nat) (c : CheckRecord) : (s.opDropDischargeCheck n c).ramps = s.ramps := rfl
@[simp] theorem State.opDropDischargeCheck_sections (n : Nat) (c : CheckRecord) : (s.opDropDischargeCheck n c).sections = s.sections := rfl
@[simp] theorem State.opDropDischargeCheck_gap (n : Nat) (c : CheckRecord) : (s.opDropDischargeCheck n c).gap = s.gap := rfl
@[simp] theorem State.opDropDischargeCheck_segregation (n : Nat) (c : CheckRecord) : (s.opDropDischargeCheck n c).segregation = s.segregation := rfl
@[simp] theorem State.opDropDischargeCheck_poolInUse (n : Nat) (c : CheckRecord) : (s.opDropDischargeCheck n c).poolInUse = s.poolInUse := rfl
@[simp] theorem State.opDropDischargeCheck_monitor (n : Nat) (c : CheckRecord) : (s.opDropDischargeCheck n c).monitor = s.monitor := rfl
@[simp] theorem State.opDropDischargeCheck_seqNext (n : Nat) (c : CheckRecord) : (s.opDropDischargeCheck n c).seqNext = s.seqNext := rfl
@[simp] theorem State.opDropDischargeCheck_movements (n : Nat) (c : CheckRecord) : (s.opDropDischargeCheck n c).movements = s.movements := rfl
@[simp] theorem State.opDropDischargeCheck_timeout (n : Nat) (c : CheckRecord) : (s.opDropDischargeCheck n c).timeout = s.timeout := rfl
@[simp] theorem State.opDropDischargeCheck_waiting (n : Nat) (c : CheckRecord) : (s.opDropDischargeCheck n c).waiting = s.waiting := rfl
@[simp] theorem State.opDropDischargeCheck_clock (n : Nat) (c : CheckRecord) : (s.opDropDischargeCheck n c).clock = s.clock := rfl
@[simp] theorem State.opDropDischargeCheck_inputs (n : Nat) (c : CheckRecord) : (s.opDropDischargeCheck n c).inputs = s.inputs := rfl
@[simp] theorem State.opDropDischargeCheck_control (n : Nat) (c : CheckRecord) : (s.opDropDischargeCheck n c).control = s.control := rfl
@[simp] theorem State.opDropDischargeCheck_store (n : Nat) (c : CheckRecord) : (s.opDropDischargeCheck n c).store = s.store := rfl
@[simp] theorem State.opDropDischargeCheck_pending (n : Nat) (c : CheckRecord) : (s.opDropDischargeCheck n c).pending = s.pending := rfl

end Sys2Proof.Machine
end

