-- ==== Sys2Proof/Laws/Links.lean ====
section
/-! SUPPORT. Links: reading one station's value, what placing and releasing notices does to a link, and what
sending notices leaves as it was. -/

namespace Sys2Proof.Machine

/-! One value for each station -/

@[simp] theorem PerStation.get_of {α : Type} (f : Station → α) (st : Station) :
    (PerStation.of f).get st = f st := by cases st <;> rfl

@[simp] theorem PerStation.get_set_self {α : Type} (p : PerStation α) (st : Station) (a : α) :
    (p.set st a).get st = a := by cases st <;> rfl

theorem PerStation.get_set_of_ne {α : Type} (p : PerStation α) {st o : Station} (a : α) (h : o ≠ st) :
    (p.set st a).get o = p.get o := by
  cases st <;> cases o <;> first | rfl | exact absurd rfl h

theorem PerStation.get_set {α : Type} (p : PerStation α) (st o : Station) (a : α) :
    (p.set st a).get o = if o = st then a else p.get o := by
  cases st <;> cases o <;> rfl

/-- Two values that agree at every station are one value. -/
theorem PerStation.ext_get {α : Type} {p q : PerStation α} (h : ∀ st, p.get st = q.get st) : p = q := by
  obtain ⟨a, b, c, d, e, f⟩ := p
  obtain ⟨a', b', c', d', e', f'⟩ := q
  have h1 := h .loading
  have h2 := h .yard
  have h3 := h .ramp1
  have h4 := h .ramp2
  have h5 := h .ramp3
  have h6 := h .ramp4
  simp only [PerStation.get] at h1 h2 h3 h4 h5 h6
  simp [*]

@[simp] theorem mem_allStations (st : Station) : st ∈ allStations := by cases st <;> simp [allStations]

/-! Links of a changed state -/

@[simp] theorem State.setLink_get (s : State) (st o : Station) (l : Link) :
    (s.setLink st l).links.get o = if o = st then l else s.links.get o := by
  simp [State.setLink, PerStation.get_set]

@[simp] theorem State.setStation_get (s : State) (st o : Station) (r : StationRow) :
    (s.setStation st r).stations.get o = if o = st then r else s.stations.get o := by
  simp [State.setStation, PerStation.get_set]

@[simp] theorem State.popMailbox_get (s : State) (st o : Station) :
    (s.popMailbox st).links.get o =
      if o = st then { s.links.get st with mailbox := (s.links.get st).mailbox.tail }
      else s.links.get o := by
  simp [State.popMailbox]

@[simp] theorem State.reply_get (s : State) (st o : Station) (f : Frame) :
    (s.reply st f).links.get o =
      if o = st then { s.links.get st with queue := (s.links.get st).queue ++ [f] } else s.links.get o := by
  simp [State.reply]

@[simp] theorem State.send_get (s : State) (n : Notice) (o : Station) :
    (s.send n).links.get o =
      if n.goesTo s.stations o then ((s.links.get o).place n.kind n.content).release
      else s.links.get o := by
  simp [State.send]

@[simp] theorem State.releaseAll_get (s : State) (o : Station) :
    s.releaseAll.links.get o = (s.links.get o).release := by
  simp [State.releaseAll]

@[simp] theorem State.commit_store (s : State) :
    s.commit.store = { image := s.image, intact := true } := rfl

/-! Growth -/

theorem Link.GrownTo.refl (a : Link) : a.GrownTo a :=
  ⟨List.prefix_refl _, rfl, rfl, rfl, rfl, rfl⟩

theorem Link.GrownTo.trans {a b c : Link} (h : a.GrownTo b) (k : b.GrownTo c) : a.GrownTo c :=
  ⟨h.queue.trans k.queue, k.mailbox.trans h.mailbox, k.ready.trans h.ready,
    k.readyInput.trans h.readyInput, k.receiver.trans h.receiver, k.line.trans h.line⟩

/-- A notice joins behind the queue or goes to a slot (R161). -/
theorem Link.place_grown (l : Link) (k : NoticeKind) (c : List Byte) : l.GrownTo (l.place k c) := by
  unfold Link.place
  split
  · exact ⟨⟨_, rfl⟩, rfl, rfl, rfl, rfl, rfl⟩
  · split
    · exact ⟨List.prefix_refl _, rfl, rfl, rfl, rfl, rfl⟩
    · exact ⟨List.prefix_refl _, rfl, rfl, rfl, rfl, rfl⟩

theorem releaseInto_prefix (q : List Frame) (slots : List Slot) : q <+: (releaseInto q slots).1 := by
  induction slots generalizing q with
  | nil => exact List.prefix_refl _
  | cons x rest ih =>
    simp only [releaseInto]
    split
    · exact (List.prefix_append _ _).trans (ih _)
    · exact List.prefix_refl _

/-- Released slots join behind the queue (R162). -/
theorem Link.release_grown (l : Link) : l.GrownTo l.release := by
  unfold Link.release
  split
  · exact ⟨releaseInto_prefix _ _, rfl, rfl, rfl, rfl, rfl⟩
  · exact Link.GrownTo.refl _

theorem releaseInto_length (q : List Frame) (slots : List Slot) (h : q.length ≤ Config.queueSize) :
    (releaseInto q slots).1.length ≤ Config.queueSize := by
  induction slots generalizing q with
  | nil => exact h
  | cons x rest ih =>
    simp only [releaseInto]
    split
    · apply ih
      simp only [List.length_append, List.length_singleton]
      omega
    · exact h

/-- Releasing never overfills a queue. -/
theorem Link.release_queue_length (l : Link) (h : l.queue.length ≤ Config.queueSize) :
    l.release.queue.length ≤ Config.queueSize := by
  unfold Link.release
  split
  · exact releaseInto_length _ _ h
  · exact h

/-- Placing never overfills a queue. -/
theorem Link.place_queue_length (l : Link) (k : NoticeKind) (c : List Byte)
    (h : l.queue.length ≤ Config.queueSize) : (l.place k c).queue.length ≤ Config.queueSize := by
  unfold Link.place
  split
  · rename_i hc
    simp only [List.length_append, List.length_singleton]
    omega
  · split <;> exact h

/-- Releasing stops at a full queue or with no slot left. -/
theorem releaseInto_done (q : List Frame) (slots : List Slot) (h : q.length ≤ Config.queueSize) :
    (releaseInto q slots).2 = [] ∨ (releaseInto q slots).1.length = Config.queueSize := by
  induction slots generalizing q with
  | nil => exact Or.inl rfl
  | cons x rest ih =>
    simp only [releaseInto]
    split
    · apply ih
      simp only [List.length_append, List.length_singleton]
      omega
    · right
      show q.length = Config.queueSize
      omega

theorem releaseInto_suffix (q : List Frame) (slots : List Slot) : (releaseInto q slots).2 <:+ slots := by
  induction slots generalizing q with
  | nil => exact List.suffix_refl _
  | cons x rest ih =>
    simp only [releaseInto]
    split
    · exact (ih _).trans (List.suffix_cons _ _)
    · exact List.suffix_refl _

/-! Notices alone are added -/

/-- A notice's frame has its kind's code, one of C0 and above, and tag 0 (R170, Table 12-2). -/
theorem noticeFrame_kind (k : NoticeKind) (m : Nat) (c : List Byte) :
    (noticeFrame k m c).kind.toNat = noticeCode k ∧ 0xC0 ≤ (noticeFrame k m c).kind.toNat ∧
      (noticeFrame k m c).tag = 0 := by
  have h : (BitVec.ofNat 8 (noticeCode k)).toNat = noticeCode k ∧ 0xC0 ≤ noticeCode k := by
    cases k <;> decide
  exact ⟨h.1, h.1 ▸ h.2, rfl⟩

theorem Link.AddsNotices.refl (a : Link) : a.AddsNotices a :=
  ⟨[], by simp, by simp, fun x hx => Or.inl ⟨x, hx, rfl⟩⟩

theorem Link.AddsNotices.trans {a b c : Link} (h : a.AddsNotices b) (k : b.AddsNotices c) :
    a.AddsNotices c := by
  obtain ⟨m, hq, hm, hs⟩ := h
  obtain ⟨n, kq, km, ks⟩ := k
  refine ⟨m ++ n, by rw [kq, hq, List.append_assoc], fun g hg => ?_, fun x hx => ?_⟩
  · exact (List.mem_append.mp hg).elim (hm g) (km g)
  · rcases hs x hx with ⟨y, hy, e⟩ | ⟨g, hg, e⟩
    · rcases ks y hy with ⟨z, hz, f⟩ | ⟨g, hg, f⟩
      · exact Or.inl ⟨z, hz, f.trans e⟩
      · exact Or.inr ⟨g, List.mem_append_right _ hg, e ▸ f⟩
    · exact Or.inr ⟨g, List.mem_append_left _ hg, e⟩

/-- A placement adds its notice to the queue or leaves every slot's kind held (R161). -/
theorem Link.place_addsNotices (l : Link) (k : NoticeKind) (c : List Byte) :
    l.AddsNotices (l.place k c) := by
  unfold Link.place
  split
  · exact ⟨[noticeFrame k 1 c], rfl, by simp [(noticeFrame_kind k 1 c).2], fun x hx => Or.inl ⟨x, hx, rfl⟩⟩
  · split
    · refine ⟨[], by simp, by simp, fun x hx => Or.inl ⟨_, List.mem_map_of_mem hx, ?_⟩⟩
      split <;> rfl
    · exact ⟨[], by simp, by simp, fun x hx => Or.inl ⟨x, List.mem_append_left _ hx, rfl⟩⟩

/-- What is released are the oldest slots, each as its notice's frame (R162). -/
theorem releaseInto_split (q : List Frame) (slots : List Slot) :
    ∃ out, slots = out ++ (releaseInto q slots).2 ∧
      (releaseInto q slots).1 = q ++ out.map fun x => noticeFrame x.kind x.merge x.content := by
  induction slots generalizing q with
  | nil => exact ⟨[], rfl, by simp [releaseInto]⟩
  | cons x rest ih =>
    simp only [releaseInto]
    split
    · obtain ⟨out, h, k⟩ := ih (q ++ [noticeFrame x.kind x.merge x.content])
      exact ⟨x :: out, by simp [← h], by simp [k]⟩
    · exact ⟨[], by simp, by simp⟩

/-- A release adds the notices it takes out of the slots (R162). -/
theorem Link.release_addsNotices (l : Link) : l.AddsNotices l.release := by
  unfold Link.release
  split
  · obtain ⟨out, h, k⟩ := releaseInto_split l.queue l.slots
    refine ⟨_, k, fun g hg => ?_, fun x hx => ?_⟩
    · obtain ⟨x, -, rfl⟩ := List.mem_map.mp hg
      exact (noticeFrame_kind _ _ _).2
    · rw [h] at hx
      rcases List.mem_append.mp hx with hx | hx
      · exact Or.inr ⟨_, List.mem_map_of_mem hx, (noticeFrame_kind _ _ _).1⟩
      · exact Or.inl ⟨x, hx, rfl⟩
  · exact Link.AddsNotices.refl _

/-! Sending -/

@[simp] theorem State.sendAll_nil (s : State) : s.sendAll [] = s := rfl

@[simp] theorem State.sendAll_cons (s : State) (n : Notice) (ns : List Notice) :
    s.sendAll (n :: ns) = (s.send n).sendAll ns := rfl

theorem State.sendAll_append (s : State) (a b : List Notice) :
    s.sendAll (a ++ b) = (s.sendAll a).sendAll b := by
  simp [State.sendAll, List.foldl_append]

/-- Sending changes nothing but the links. -/
theorem State.sendAll_frame (s : State) (ns : List Notice) :
    s.sendAll ns = { s with links := (s.sendAll ns).links } := by
  induction ns generalizing s with
  | nil => rfl
  | cons n rest ih =>
    rw [State.sendAll_cons, ih]
    rfl

/-- Sending grows every link. -/
theorem State.sendAll_grown (s : State) (ns : List Notice) (o : Station) :
    (s.links.get o).GrownTo ((s.sendAll ns).links.get o) := by
  induction ns generalizing s with
  | nil => exact Link.GrownTo.refl _
  | cons n rest ih =>
    rw [State.sendAll_cons]
    refine Link.GrownTo.trans ?_ (ih _)
    rw [State.send_get]
    split
    · exact (Link.place_grown _ _ _).trans (Link.release_grown _)
    · exact Link.GrownTo.refl _

/-- Sending adds notices alone to every link. -/
theorem State.sendAll_addsNotices (s : State) (ns : List Notice) (o : Station) :
    (s.links.get o).AddsNotices ((s.sendAll ns).links.get o) := by
  induction ns generalizing s with
  | nil => exact Link.AddsNotices.refl _
  | cons n rest ih =>
    rw [State.sendAll_cons]
    refine Link.AddsNotices.trans ?_ (ih _)
    rw [State.send_get]
    split
    · exact (Link.place_addsNotices _ _ _).trans (Link.release_addsNotices _)
    · exact Link.AddsNotices.refl _

@[simp] theorem State.sendAll_stations (s : State) (ns : List Notice) : (s.sendAll ns).stations = s.stations := by
  rw [State.sendAll_frame]

@[simp] theorem State.sendAll_register (s : State) (ns : List Notice) : (s.sendAll ns).register = s.register := by
  rw [State.sendAll_frame]

@[simp] theorem State.sendAll_isSealed (s : State) (ns : List Notice) : (s.sendAll ns).isSealed = s.isSealed := by
  rw [State.sendAll_frame]

@[simp] theorem State.sendAll_lanes (s : State) (ns : List Notice) : (s.sendAll ns).lanes = s.lanes := by
  rw [State.sendAll_frame]

@[simp] theorem State.sendAll_zones (s : State) (ns : List Notice) : (s.sendAll ns).zones = s.zones := by
  rw [State.sendAll_frame]

@[simp] theorem State.sendAll_ramps (s : State) (ns : List Notice) : (s.sendAll ns).ramps = s.ramps := by
  rw [State.sendAll_frame]

@[simp] theorem State.sendAll_sections (s : State) (ns : List Notice) : (s.sendAll ns).sections = s.sections := by
  rw [State.sendAll_frame]

@[simp] theorem State.sendAll_gap (s : State) (ns : List Notice) : (s.sendAll ns).gap = s.gap := by
  rw [State.sendAll_frame]

@[simp] theorem State.sendAll_segregation (s : State) (ns : List Notice) : (s.sendAll ns).segregation = s.segregation := by
  rw [State.sendAll_frame]

@[simp] theorem State.sendAll_poolInUse (s : State) (ns : List Notice) : (s.sendAll ns).poolInUse = s.poolInUse := by
  rw [State.sendAll_frame]

@[simp] theorem State.sendAll_account (s : State) (ns : List Notice) : (s.sendAll ns).account = s.account := by
  rw [State.sendAll_frame]

@[simp] theorem State.sendAll_monitor (s : State) (ns : List Notice) : (s.sendAll ns).monitor = s.monitor := by
  rw [State.sendAll_frame]

@[simp] theorem State.sendAll_seqNext (s : State) (ns : List Notice) : (s.sendAll ns).seqNext = s.seqNext := by
  rw [State.sendAll_frame]

@[simp] theorem State.sendAll_movements (s : State) (ns : List Notice) : (s.sendAll ns).movements = s.movements := by
  rw [State.sendAll_frame]

@[simp] theorem State.sendAll_timeout (s : State) (ns : List Notice) : (s.sendAll ns).timeout = s.timeout := by
  rw [State.sendAll_frame]

@[simp] theorem State.sendAll_waiting (s : State) (ns : List Notice) : (s.sendAll ns).waiting = s.waiting := by
  rw [State.sendAll_frame]

@[simp] theorem State.sendAll_clock (s : State) (ns : List Notice) : (s.sendAll ns).clock = s.clock := by
  rw [State.sendAll_frame]

@[simp] theorem State.sendAll_inputs (s : State) (ns : List Notice) : (s.sendAll ns).inputs = s.inputs := by
  rw [State.sendAll_frame]

@[simp] theorem State.sendAll_control (s : State) (ns : List Notice) : (s.sendAll ns).control = s.control := by
  rw [State.sendAll_frame]

@[simp] theorem State.sendAll_store (s : State) (ns : List Notice) : (s.sendAll ns).store = s.store := by
  rw [State.sendAll_frame]

@[simp] theorem State.sendAll_pending (s : State) (ns : List Notice) : (s.sendAll ns).pending = s.pending := by
  rw [State.sendAll_frame]

end Sys2Proof.Machine
end

