-- ==== Sys2Proof/Laws/Tables.lean ====
section
/-! SUPPORT. The numbered stores: what a read gives after a write, and that every operation keeps the
canonical form. -/

namespace Sys2Proof

variable {α β : Type}

@[simp] theorem Table.get_nil (n : Nat) : Table.get ([] : Table α) n = none := rfl

@[simp] theorem Table.get_cons (k n : Nat) (v : α) (t : Table α) :
    Table.get ((k, v) :: t) n = if k = n then some v else Table.get t n := rfl

/-- Below the lowest number nothing is defined. -/
theorem Table.get_of_le {t : Table α} {lo n : Nat} (h : t.risingAbove lo) (hn : n ≤ lo) :
    Table.get t n = none := by
  induction t generalizing lo with
  | nil => rfl
  | cons p rest ih =>
    obtain ⟨k, v⟩ := p
    simp only [Table.risingAbove, Bool.and_eq_true, decide_eq_true_eq] at h
    simp only [Table.get_cons]
    rw [if_neg (by omega), ih h.2 (by omega)]

/-- A number set reads as its record. -/
@[simp] theorem Table.get_set_self (t : Table α) (n : Nat) (a : α) : Table.get (t.set n a) n = some a := by
  induction t with
  | nil => simp [Table.set]
  | cons p rest ih =>
    obtain ⟨k, v⟩ := p
    simp only [Table.set]
    split
    · simp
    · split
      · simp
      · rename_i h1 h2
        simp [Ne.symm h2, ih]

/-- A number set leaves every other number as it was. -/
theorem Table.get_set_of_ne (t : Table α) {n m : Nat} (a : α) (h : m ≠ n) :
    Table.get (t.set n a) m = Table.get t m := by
  induction t with
  | nil => simp [Table.set, h.symm]
  | cons p rest ih =>
    obtain ⟨k, v⟩ := p
    simp only [Table.set]
    split
    · simp [h.symm]
    · split
      · rename_i h1 h2
        subst h2
        simp [h.symm]
      · simp [ih]

/-- A number erased is undefined. -/
theorem Table.get_erase_self {t : Table α} {lo : Nat} (h : t.risingAbove lo) (n : Nat) :
    Table.get (t.erase n) n = none := by
  induction t generalizing lo with
  | nil => rfl
  | cons p rest ih =>
    obtain ⟨k, v⟩ := p
    simp only [Table.risingAbove, Bool.and_eq_true, decide_eq_true_eq] at h
    simp only [Table.erase]
    split
    · rename_i hk
      exact Table.get_of_le h.2 (by omega)
    · rename_i hk
      simp [hk, ih h.2]

/-- A number erased leaves every other number as it was. -/
theorem Table.get_erase_of_ne (t : Table α) {n m : Nat} (h : m ≠ n) :
    Table.get (t.erase n) m = Table.get t m := by
  induction t with
  | nil => rfl
  | cons p rest ih =>
    obtain ⟨k, v⟩ := p
    simp only [Table.erase]
    split
    · rename_i hk
      subst hk
      simp [h.symm]
    · simp [ih]

/-- A change of every record is read through. -/
@[simp] theorem Table.get_mapAll (t : Table α) (f : α → β) (n : Nat) :
    Table.get (t.mapAll f) n = (Table.get t n).map f := by
  induction t with
  | nil => rfl
  | cons p rest ih =>
    obtain ⟨k, v⟩ := p
    have : Table.mapAll ((k, v) :: rest) f = (k, f v) :: Table.mapAll rest f := rfl
    rw [this]
    simp only [Table.get_cons, ih]
    split <;> simp

/-- A change of one record is read through at its number, and leaves the others as they were. -/
@[simp] theorem Table.get_modify (t : Table α) (n m : Nat) (f : α → α) :
    Table.get (t.modify n f) m = if m = n then (Table.get t m).map f else Table.get t m := by
  induction t with
  | nil => simp [Table.modify]
  | cons p rest ih =>
    obtain ⟨k, v⟩ := p
    have : Table.modify ((k, v) :: rest) n f =
        (if k = n then (k, f v) else (k, v)) :: Table.modify rest n f := rfl
    rw [this]
    by_cases hk : k = n <;> by_cases hm : m = n <;> by_cases hkm : k = m <;>
      simp_all

/-- A change that keeps the numbers keeps the canonical form. -/
theorem Table.risingAbove_congr (t : Table α) (u : Table β) (lo : Nat)
    (h : t.map (·.1) = u.map (·.1)) : t.risingAbove lo = u.risingAbove lo := by
  induction t generalizing u lo with
  | nil =>
    cases u with
    | nil => rfl
    | cons _ _ => simp at h
  | cons p rest ih =>
    cases u with
    | nil => simp at h
    | cons q rest' =>
      obtain ⟨k, v⟩ := p
      obtain ⟨k', v'⟩ := q
      simp only [List.map_cons, List.cons.injEq] at h
      obtain ⟨rfl, h2⟩ := h
      simp only [Table.risingAbove]
      rw [ih rest' k h2]

theorem Table.wf_congr (t : Table α) (u : Table β) (last : Nat) (h : t.map (·.1) = u.map (·.1)) :
    t.wf last = u.wf last := by
  have hall : ∀ (a : Table α), (a.all fun p => decide (p.1 ≤ last)) =
      ((a.map (·.1)).all fun n => decide (n ≤ last)) := by
    intro a; simp [List.all_map, Function.comp_def]
  have hall' : ∀ (a : Table β), (a.all fun p => decide (p.1 ≤ last)) =
      ((a.map (·.1)).all fun n => decide (n ≤ last)) := by
    intro a; simp [List.all_map, Function.comp_def]
  simp only [Table.wf]
  rw [Table.risingAbove_congr t u 0 h, hall, hall', h]

@[simp] theorem Table.keys_modify (t : Table α) (n : Nat) (f : α → α) :
    (t.modify n f).map (·.1) = t.map (·.1) := by
  simp only [Table.modify, List.map_map]
  apply List.map_congr_left
  intro p _
  simp only [Function.comp_apply]
  split <;> rfl

@[simp] theorem Table.keys_mapAll (t : Table α) (f : α → β) : (t.mapAll f).map (·.1) = t.map (·.1) := by
  simp [Table.mapAll, Function.comp_def]

@[simp] theorem Table.wf_modify (t : Table α) (n last : Nat) (f : α → α) :
    (t.modify n f).wf last = t.wf last := Table.wf_congr _ _ _ (by simp)

@[simp] theorem Table.wf_mapAll (t : Table α) (last : Nat) (f : α → β) :
    (t.mapAll f).wf last = t.wf last := Table.wf_congr _ _ _ (by simp)

theorem Table.risingAbove_set (t : Table α) (lo n : Nat) (a : α) (h : t.risingAbove lo) (hn : lo < n) :
    (t.set n a).risingAbove lo := by
  induction t generalizing lo with
  | nil => simp [Table.set, Table.risingAbove, hn]
  | cons p rest ih =>
    obtain ⟨k, v⟩ := p
    simp only [Table.risingAbove, Bool.and_eq_true, decide_eq_true_eq] at h
    simp only [Table.set]
    split
    · simp [Table.risingAbove, *]
    · split
      · simp [Table.risingAbove, *]
      · simp [Table.risingAbove, h.1, ih k h.2 (by omega)]

theorem Table.mem_set {t : Table α} {n : Nat} {a : α} {p : Nat × α} (h : p ∈ t.set n a) :
    p ∈ t ∨ p = (n, a) := by
  induction t with
  | nil => simp_all [Table.set]
  | cons q rest ih =>
    simp only [Table.set] at h
    split at h
    · simp only [List.mem_cons] at h ⊢; tauto
    · split at h
      · simp only [List.mem_cons] at h ⊢; tauto
      · simp only [List.mem_cons] at h ⊢
        rcases h with h | h
        · tauto
        · rcases ih h with h | h <;> tauto

/-- Setting a number from 1 to `last` keeps the canonical form. -/
theorem Table.wf_set (t : Table α) (n last : Nat) (a : α) (h : t.wf last) (hn : 1 ≤ n) (hl : n ≤ last) :
    (t.set n a).wf last := by
  simp only [Table.wf, Bool.and_eq_true, List.all_eq_true, decide_eq_true_eq] at h ⊢
  refine ⟨Table.risingAbove_set t 0 n a h.1 hn, fun p hp => ?_⟩
  rcases Table.mem_set hp with hp | rfl
  · exact h.2 p hp
  · exact hl

theorem Table.risingAbove_mono (t : Table α) {lo lo' : Nat} (h : t.risingAbove lo) (hl : lo' ≤ lo) :
    t.risingAbove lo' := by
  cases t with
  | nil => rfl
  | cons p rest =>
    obtain ⟨k, v⟩ := p
    simp only [Table.risingAbove, Bool.and_eq_true, decide_eq_true_eq] at h ⊢
    exact ⟨by omega, h.2⟩

theorem Table.risingAbove_erase (t : Table α) (lo n : Nat) (h : t.risingAbove lo) :
    (t.erase n).risingAbove lo := by
  induction t generalizing lo with
  | nil => rfl
  | cons p rest ih =>
    obtain ⟨k, v⟩ := p
    simp only [Table.risingAbove, Bool.and_eq_true, decide_eq_true_eq] at h
    simp only [Table.erase]
    split
    · exact Table.risingAbove_mono rest h.2 (by omega)
    · simp [Table.risingAbove, h.1, ih k h.2]

theorem Table.mem_of_mem_erase {t : Table α} {n : Nat} {p : Nat × α} (h : p ∈ t.erase n) : p ∈ t := by
  induction t with
  | nil => simp_all [Table.erase]
  | cons q rest ih =>
    simp only [Table.erase] at h
    split at h
    · exact List.mem_cons_of_mem _ h
    · simp only [List.mem_cons] at h ⊢
      exact h.imp id ih

/-- Erasing keeps the canonical form. -/
theorem Table.wf_erase (t : Table α) (n last : Nat) (h : t.wf last) : (t.erase n).wf last := by
  simp only [Table.wf, Bool.and_eq_true, List.all_eq_true, decide_eq_true_eq] at h ⊢
  exact ⟨Table.risingAbove_erase t 0 n h.1, fun p hp => h.2 p (Table.mem_of_mem_erase hp)⟩

/-- In a canonical store every listed record is the one its number reads as. -/
theorem Table.get_of_mem {t : Table α} {lo : Nat} (h : t.risingAbove lo) {p : Nat × α} (hp : p ∈ t) :
    Table.get t p.1 = some p.2 := by
  induction t generalizing lo with
  | nil => simp at hp
  | cons q rest ih =>
    obtain ⟨k, v⟩ := q
    simp only [Table.risingAbove, Bool.and_eq_true, decide_eq_true_eq] at h
    rcases List.mem_cons.mp hp with rfl | hp
    · simp
    · have hne : k ≠ p.1 := by
        intro e
        have := Table.get_of_le h.2 (Nat.le_of_eq e.symm)
        rw [ih h.2 hp] at this
        simp at this
      simp [hne, ih h.2 hp]

/-- A record that is read is listed. -/
theorem Table.mem_of_get {t : Table α} {n : Nat} {a : α} (h : Table.get t n = some a) : (n, a) ∈ t := by
  induction t with
  | nil => simp at h
  | cons q rest ih =>
    obtain ⟨k, v⟩ := q
    simp only [Table.get_cons] at h
    split at h
    · simp_all
    · exact List.mem_cons_of_mem _ (ih h)

end Sys2Proof
end

