-- ==== Sys2Proof/Laws/Events.lean ====
section
/-! SUPPORT. Events: what a re-examination pass and the end of an event leave as they were, when an event
leaves the plan alone, and what taking a request comes to. -/

namespace Sys2Proof.Machine

/-! The re-examination pass -/

/-- What one state keeps of another across a pass: everything but the register, the lanes, the zones, the
ramp counts, the pool, the account, the sequence counter, the Movement Table and the Waiting List. -/
structure PassKeeps (s t : State) : Prop where
  links : t.links = s.links
  stations : t.stations = s.stations
  isSealed : t.isSealed = s.isSealed
  sections : t.sections = s.sections
  gap : t.gap = s.gap
  segregation : t.segregation = s.segregation
  monitor : t.monitor = s.monitor
  timeout : t.timeout = s.timeout
  clock : t.clock = s.clock
  inputs : t.inputs = s.inputs
  control : t.control = s.control
  store : t.store = s.store
  pending : t.pending = s.pending

theorem PassKeeps.refl (s : State) : PassKeeps s s := ⟨rfl, rfl, rfl, rfl, rfl, rfl, rfl, rfl, rfl, rfl, rfl, rfl, rfl⟩

theorem PassKeeps.trans {s t u : State} (h : PassKeeps s t) (k : PassKeeps t u) : PassKeeps s u where
  links := k.links.trans h.links
  stations := k.stations.trans h.stations
  isSealed := k.isSealed.trans h.isSealed
  sections := k.sections.trans h.sections
  gap := k.gap.trans h.gap
  segregation := k.segregation.trans h.segregation
  monitor := k.monitor.trans h.monitor
  timeout := k.timeout.trans h.timeout
  clock := k.clock.trans h.clock
  inputs := k.inputs.trans h.inputs
  control := k.control.trans h.control
  store := k.store.trans h.store
  pending := k.pending.trans h.pending

theorem State.reserveLoad_keeps (s : State) (ramp : Nat) (b : Booking) (u : UnitBody) (p : SlotPlace) :
    PassKeeps s (s.reserveLoad ramp b u p) := by
  constructor <;> simp [State.reserveLoad]

theorem State.admitWaiting_keeps (s : State) (w : Waiting) (u : UnitBody) (n : Nat) (l : Lane) :
    PassKeeps s (s.admitWaiting w u n l).1 := by
  have h1 : PassKeeps s (s.dropWaiting w.booking) := by constructor <;> simp
  have h2 := (s.dropWaiting w.booking).reserveLoad_keeps w.ramp w.booking u (s.slotOf n l u)
  have h3 : PassKeeps ((s.dropWaiting w.booking).reserveLoad w.ramp w.booking u (s.slotOf n l u))
      (s.admitWaiting w u n l).1 := by
    constructor <;> simp [State.admitWaiting]
  exact (h1.trans h2).trans h3

theorem State.failExamination_keeps (s : State) (w : Waiting) (rs : Reasons) :
    PassKeeps s (s.failExamination w rs).1 := by
  unfold State.failExamination
  split <;> constructor <;> simp

/-- One element of a pass changes nothing outside the plan. -/
theorem State.passElement_keeps (s : State) (w : Waiting) : PassKeeps s (s.passElement w).1 := by
  unfold State.passElement
  split
  · split
    · exact PassKeeps.refl s
    · split
      · exact s.failExamination_keeps _ _
      · split
        · exact s.admitWaiting_keeps _ _ _ _
        · exact PassKeeps.refl s
  · exact PassKeeps.refl s

theorem State.passOver_keeps (s : State) (ws : List Waiting) : PassKeeps s (s.passOver ws).1 := by
  induction ws generalizing s with
  | nil => exact PassKeeps.refl s
  | cons w rest ih => exact (s.passElement_keeps w).trans (ih _)

/-- A pass changes nothing outside the plan. -/
theorem State.runPass_keeps (s : State) : PassKeeps s s.runPass.1 := by
  unfold State.runPass
  split
  · exact s.passOver_keeps _
  · exact PassKeeps.refl s

/-- A pass that is not allowed does nothing (R125). -/
theorem State.runPass_of_not_allowed (s : State) (h : s.passAllowed = false) : s.runPass = (s, []) := by
  simp [State.runPass, h]

/-- A pass over an empty list does nothing. -/
theorem State.runPass_of_empty (s : State) (h : s.waiting = []) : s.runPass = (s, []) := by
  unfold State.runPass
  split
  · rw [h]; rfl
  · rfl

/-! The end of an event -/

@[simp] theorem State.reviseAccount_links (s s0 : State) : (s.reviseAccount s0).links = s.links := by
  unfold State.reviseAccount; split <;> rfl

@[simp] theorem State.reviseAccount_stations (s s0 : State) : (s.reviseAccount s0).stations = s.stations := by
  unfold State.reviseAccount; split <;> rfl

@[simp] theorem State.reviseAccount_register (s s0 : State) : (s.reviseAccount s0).register = s.register := by
  unfold State.reviseAccount; split <;> rfl

@[simp] theorem State.reviseAccount_isSealed (s s0 : State) : (s.reviseAccount s0).isSealed = s.isSealed := by
  unfold State.reviseAccount; split <;> rfl

@[simp] theorem State.reviseAccount_lanes (s s0 : State) : (s.reviseAccount s0).lanes = s.lanes := by
  unfold State.reviseAccount; split <;> rfl

@[simp] theorem State.reviseAccount_zones (s s0 : State) : (s.reviseAccount s0).zones = s.zones := by
  unfold State.reviseAccount; split <;> rfl

@[simp] theorem State.reviseAccount_ramps (s s0 : State) : (s.reviseAccount s0).ramps = s.ramps := by
  unfold State.reviseAccount; split <;> rfl

@[simp] theorem State.reviseAccount_sections (s s0 : State) : (s.reviseAccount s0).sections = s.sections := by
  unfold State.reviseAccount; split <;> rfl

@[simp] theorem State.reviseAccount_gap (s s0 : State) : (s.reviseAccount s0).gap = s.gap := by
  unfold State.reviseAccount; split <;> rfl

@[simp] theorem State.reviseAccount_segregation (s s0 : State) : (s.reviseAccount s0).segregation = s.segregation := by
  unfold State.reviseAccount; split <;> rfl

@[simp] theorem State.reviseAccount_poolInUse (s s0 : State) : (s.reviseAccount s0).poolInUse = s.poolInUse := by
  unfold State.reviseAccount; split <;> rfl

@[simp] theorem State.reviseAccount_monitor (s s0 : State) : (s.reviseAccount s0).monitor = s.monitor := by
  unfold State.reviseAccount; split <;> rfl

@[simp] theorem State.reviseAccount_seqNext (s s0 : State) : (s.reviseAccount s0).seqNext = s.seqNext := by
  unfold State.reviseAccount; split <;> rfl

@[simp] theorem State.reviseAccount_movements (s s0 : State) : (s.reviseAccount s0).movements = s.movements := by
  unfold State.reviseAccount; split <;> rfl

@[simp] theorem State.reviseAccount_timeout (s s0 : State) : (s.reviseAccount s0).timeout = s.timeout := by
  unfold State.reviseAccount; split <;> rfl

@[simp] theorem State.reviseAccount_waiting (s s0 : State) : (s.reviseAccount s0).waiting = s.waiting := by
  unfold State.reviseAccount; split <;> rfl

@[simp] theorem State.reviseAccount_clock (s s0 : State) : (s.reviseAccount s0).clock = s.clock := by
  unfold State.reviseAccount; split <;> rfl

@[simp] theorem State.reviseAccount_inputs (s s0 : State) : (s.reviseAccount s0).inputs = s.inputs := by
  unfold State.reviseAccount; split <;> rfl

@[simp] theorem State.reviseAccount_control (s s0 : State) : (s.reviseAccount s0).control = s.control := by
  unfold State.reviseAccount; split <;> rfl

@[simp] theorem State.reviseAccount_store (s s0 : State) : (s.reviseAccount s0).store = s.store := by
  unfold State.reviseAccount; split <;> rfl

@[simp] theorem State.reviseAccount_pending (s s0 : State) : (s.reviseAccount s0).pending = s.pending := by
  unfold State.reviseAccount; split <;> rfl

@[simp] theorem State.reviseLanes_links (s s0 : State) : (s.reviseLanes s0).links = s.links := by
  unfold State.reviseLanes; split <;> rfl

@[simp] theorem State.reviseLanes_stations (s s0 : State) : (s.reviseLanes s0).stations = s.stations := by
  unfold State.reviseLanes; split <;> rfl

@[simp] theorem State.reviseLanes_register (s s0 : State) : (s.reviseLanes s0).register = s.register := by
  unfold State.reviseLanes; split <;> rfl

@[simp] theorem State.reviseLanes_isSealed (s s0 : State) : (s.reviseLanes s0).isSealed = s.isSealed := by
  unfold State.reviseLanes; split <;> rfl

@[simp] theorem State.reviseLanes_zones (s s0 : State) : (s.reviseLanes s0).zones = s.zones := by
  unfold State.reviseLanes; split <;> rfl

@[simp] theorem State.reviseLanes_ramps (s s0 : State) : (s.reviseLanes s0).ramps = s.ramps := by
  unfold State.reviseLanes; split <;> rfl

@[simp] theorem State.reviseLanes_sections (s s0 : State) : (s.reviseLanes s0).sections = s.sections := by
  unfold State.reviseLanes; split <;> rfl

@[simp] theorem State.reviseLanes_gap (s s0 : State) : (s.reviseLanes s0).gap = s.gap := by
  unfold State.reviseLanes; split <;> rfl

@[simp] theorem State.reviseLanes_segregation (s s0 : State) : (s.reviseLanes s0).segregation = s.segregation := by
  unfold State.reviseLanes; split <;> rfl

@[simp] theorem State.reviseLanes_poolInUse (s s0 : State) : (s.reviseLanes s0).poolInUse = s.poolInUse := by
  unfold State.reviseLanes; split <;> rfl

@[simp] theorem State.reviseLanes_account (s s0 : State) : (s.reviseLanes s0).account = s.account := by
  unfold State.reviseLanes; split <;> rfl

@[simp] theorem State.reviseLanes_monitor (s s0 : State) : (s.reviseLanes s0).monitor = s.monitor := by
  unfold State.reviseLanes; split <;> rfl

@[simp] theorem State.reviseLanes_seqNext (s s0 : State) : (s.reviseLanes s0).seqNext = s.seqNext := by
  unfold State.reviseLanes; split <;> rfl

@[simp] theorem State.reviseLanes_movements (s s0 : State) : (s.reviseLanes s0).movements = s.movements := by
  unfold State.reviseLanes; split <;> rfl

@[simp] theorem State.reviseLanes_timeout (s s0 : State) : (s.reviseLanes s0).timeout = s.timeout := by
  unfold State.reviseLanes; split <;> rfl

@[simp] theorem State.reviseLanes_waiting (s s0 : State) : (s.reviseLanes s0).waiting = s.waiting := by
  unfold State.reviseLanes; split <;> rfl

@[simp] theorem State.reviseLanes_clock (s s0 : State) : (s.reviseLanes s0).clock = s.clock := by
  unfold State.reviseLanes; split <;> rfl

@[simp] theorem State.reviseLanes_inputs (s s0 : State) : (s.reviseLanes s0).inputs = s.inputs := by
  unfold State.reviseLanes; split <;> rfl

@[simp] theorem State.reviseLanes_control (s s0 : State) : (s.reviseLanes s0).control = s.control := by
  unfold State.reviseLanes; split <;> rfl

@[simp] theorem State.reviseLanes_store (s s0 : State) : (s.reviseLanes s0).store = s.store := by
  unfold State.reviseLanes; split <;> rfl

@[simp] theorem State.reviseLanes_pending (s s0 : State) : (s.reviseLanes s0).pending = s.pending := by
  unfold State.reviseLanes; split <;> rfl

@[simp] theorem State.answer_stations (s : State) (r : Option (Station × Frame)) : (s.answer r).stations = s.stations := by
  cases r <;> rfl

@[simp] theorem State.answer_register (s : State) (r : Option (Station × Frame)) : (s.answer r).register = s.register := by
  cases r <;> rfl

@[simp] theorem State.answer_isSealed (s : State) (r : Option (Station × Frame)) : (s.answer r).isSealed = s.isSealed := by
  cases r <;> rfl

@[simp] theorem State.answer_lanes (s : State) (r : Option (Station × Frame)) : (s.answer r).lanes = s.lanes := by
  cases r <;> rfl

@[simp] theorem State.answer_zones (s : State) (r : Option (Station × Frame)) : (s.answer r).zones = s.zones := by
  cases r <;> rfl

@[simp] theorem State.answer_ramps (s : State) (r : Option (Station × Frame)) : (s.answer r).ramps = s.ramps := by
  cases r <;> rfl

@[simp] theorem State.answer_sections (s : State) (r : Option (Station × Frame)) : (s.answer r).sections = s.sections := by
  cases r <;> rfl

@[simp] theorem State.answer_gap (s : State) (r : Option (Station × Frame)) : (s.answer r).gap = s.gap := by
  cases r <;> rfl

@[simp] theorem State.answer_segregation (s : State) (r : Option (Station × Frame)) : (s.answer r).segregation = s.segregation := by
  cases r <;> rfl

@[simp] theorem State.answer_poolInUse (s : State) (r : Option (Station × Frame)) : (s.answer r).poolInUse = s.poolInUse := by
  cases r <;> rfl

@[simp] theorem State.answer_account (s : State) (r : Option (Station × Frame)) : (s.answer r).account = s.account := by
  cases r <;> rfl

@[simp] theorem State.answer_monitor (s : State) (r : Option (Station × Frame)) : (s.answer r).monitor = s.monitor := by
  cases r <;> rfl

@[simp] theorem State.answer_seqNext (s : State) (r : Option (Station × Frame)) : (s.answer r).seqNext = s.seqNext := by
  cases r <;> rfl

@[simp] theorem State.answer_movements (s : State) (r : Option (Station × Frame)) : (s.answer r).movements = s.movements := by
  cases r <;> rfl

@[simp] theorem State.answer_timeout (s : State) (r : Option (Station × Frame)) : (s.answer r).timeout = s.timeout := by
  cases r <;> rfl

@[simp] theorem State.answer_waiting (s : State) (r : Option (Station × Frame)) : (s.answer r).waiting = s.waiting := by
  cases r <;> rfl

@[simp] theorem State.answer_clock (s : State) (r : Option (Station × Frame)) : (s.answer r).clock = s.clock := by
  cases r <;> rfl

@[simp] theorem State.answer_inputs (s : State) (r : Option (Station × Frame)) : (s.answer r).inputs = s.inputs := by
  cases r <;> rfl

@[simp] theorem State.answer_control (s : State) (r : Option (Station × Frame)) : (s.answer r).control = s.control := by
  cases r <;> rfl

@[simp] theorem State.answer_store (s : State) (r : Option (Station × Frame)) : (s.answer r).store = s.store := by
  cases r <;> rfl

@[simp] theorem State.answer_pending (s : State) (r : Option (Station × Frame)) : (s.answer r).pending = s.pending := by
  cases r <;> rfl

@[simp] theorem State.report_stations (s s0 : State) (r : Option (Station × Frame)) (h t : List Notice) :
    (s.report s0 r h t).stations = s.stations := by
  simp [State.report]

@[simp] theorem State.report_register (s s0 : State) (r : Option (Station × Frame)) (h t : List Notice) :
    (s.report s0 r h t).register = s.register := by
  simp [State.report]

@[simp] theorem State.report_isSealed (s s0 : State) (r : Option (Station × Frame)) (h t : List Notice) :
    (s.report s0 r h t).isSealed = s.isSealed := by
  simp [State.report]

@[simp] theorem State.report_zones (s s0 : State) (r : Option (Station × Frame)) (h t : List Notice) :
    (s.report s0 r h t).zones = s.zones := by
  simp [State.report]

@[simp] theorem State.report_ramps (s s0 : State) (r : Option (Station × Frame)) (h t : List Notice) :
    (s.report s0 r h t).ramps = s.ramps := by
  simp [State.report]

@[simp] theorem State.report_sections (s s0 : State) (r : Option (Station × Frame)) (h t : List Notice) :
    (s.report s0 r h t).sections = s.sections := by
  simp [State.report]

@[simp] theorem State.report_gap (s s0 : State) (r : Option (Station × Frame)) (h t : List Notice) :
    (s.report s0 r h t).gap = s.gap := by
  simp [State.report]

@[simp] theorem State.report_segregation (s s0 : State) (r : Option (Station × Frame)) (h t : List Notice) :
    (s.report s0 r h t).segregation = s.segregation := by
  simp [State.report]

@[simp] theorem State.report_poolInUse (s s0 : State) (r : Option (Station × Frame)) (h t : List Notice) :
    (s.report s0 r h t).poolInUse = s.poolInUse := by
  simp [State.report]

@[simp] theorem State.report_account (s s0 : State) (r : Option (Station × Frame)) (h t : List Notice) :
    (s.report s0 r h t).account = s.account := by
  simp [State.report]

@[simp] theorem State.report_monitor (s s0 : State) (r : Option (Station × Frame)) (h t : List Notice) :
    (s.report s0 r h t).monitor = s.monitor := by
  simp [State.report]

@[simp] theorem State.report_seqNext (s s0 : State) (r : Option (Station × Frame)) (h t : List Notice) :
    (s.report s0 r h t).seqNext = s.seqNext := by
  simp [State.report]

@[simp] theorem State.report_movements (s s0 : State) (r : Option (Station × Frame)) (h t : List Notice) :
    (s.report s0 r h t).movements = s.movements := by
  simp [State.report]

@[simp] theorem State.report_timeout (s s0 : State) (r : Option (Station × Frame)) (h t : List Notice) :
    (s.report s0 r h t).timeout = s.timeout := by
  simp [State.report]

@[simp] theorem State.report_waiting (s s0 : State) (r : Option (Station × Frame)) (h t : List Notice) :
    (s.report s0 r h t).waiting = s.waiting := by
  simp [State.report]

@[simp] theorem State.report_clock (s s0 : State) (r : Option (Station × Frame)) (h t : List Notice) :
    (s.report s0 r h t).clock = s.clock := by
  simp [State.report]

@[simp] theorem State.report_inputs (s s0 : State) (r : Option (Station × Frame)) (h t : List Notice) :
    (s.report s0 r h t).inputs = s.inputs := by
  simp [State.report]

@[simp] theorem State.report_control (s s0 : State) (r : Option (Station × Frame)) (h t : List Notice) :
    (s.report s0 r h t).control = s.control := by
  simp [State.report]

@[simp] theorem State.report_store (s s0 : State) (r : Option (Station × Frame)) (h t : List Notice) :
    (s.report s0 r h t).store = s.store := by
  simp [State.report]

@[simp] theorem State.report_pending (s s0 : State) (r : Option (Station × Frame)) (h t : List Notice) :
    (s.report s0 r h t).pending = s.pending := by
  simp [State.report]

/-- A report changes no lane but in its revision. -/
@[simp] theorem State.report_lanes (s s0 : State) (r : Option (Station × Frame)) (h t : List Notice) :
    (s.report s0 r h t).lanes = (s.reviseLanes s0).lanes := by
  simp [State.report]

theorem State.report_grown (s s0 : State) (r : Option (Station × Frame)) (h t : List Notice)
    (o : Station) : ((s.answer r).links.get o).GrownTo ((s.report s0 r h t).links.get o) := by
  have e : ((s.reviseLanes s0).answer r).links = (s.answer r).links := by
    cases r with
    | none => simp [State.answer]
    | some p => simp [State.answer, State.reply, State.setLink]
  have k := State.sendAll_grown ((s.reviseLanes s0).answer r)
    (h ++ watchedReports s0 s (s.reviseLanes s0) ++ t) o
  rw [e] at k
  exact k

theorem State.passIf_keeps (s : State) (run : Bool) : State.KeepsRest s (s.passIf run) := by
  have k := s.runPass_keeps
  unfold State.passIf
  split <;> constructor <;>
    simp [k.stations, k.isSealed, k.sections, k.gap, k.segregation, k.monitor, k.timeout, k.clock, k.inputs,
      k.control, k.pending]

theorem State.passIf_grown (s : State) (run : Bool) (o : Station) :
    (s.links.get o).GrownTo ((s.passIf run).links.get o) := by
  unfold State.passIf
  split
  · have := State.sendAll_grown s.runPass.1 s.runPass.2 o
    rwa [s.runPass_keeps.links] at this
  · exact Link.GrownTo.refl _

@[simp] theorem State.settleEvent_stations (s s0 : State) : (s.settleEvent s0).stations = s.stations := by
  simp [State.settleEvent]

@[simp] theorem State.settleEvent_register (s s0 : State) : (s.settleEvent s0).register = s.register := by
  simp [State.settleEvent]

@[simp] theorem State.settleEvent_isSealed (s s0 : State) : (s.settleEvent s0).isSealed = s.isSealed := by
  simp [State.settleEvent]

@[simp] theorem State.settleEvent_lanes (s s0 : State) : (s.settleEvent s0).lanes = s.lanes := by
  simp [State.settleEvent]

@[simp] theorem State.settleEvent_zones (s s0 : State) : (s.settleEvent s0).zones = s.zones := by
  simp [State.settleEvent]

@[simp] theorem State.settleEvent_ramps (s s0 : State) : (s.settleEvent s0).ramps = s.ramps := by
  simp [State.settleEvent]

@[simp] theorem State.settleEvent_sections (s s0 : State) : (s.settleEvent s0).sections = s.sections := by
  simp [State.settleEvent]

@[simp] theorem State.settleEvent_gap (s s0 : State) : (s.settleEvent s0).gap = s.gap := by
  simp [State.settleEvent]

@[simp] theorem State.settleEvent_segregation (s s0 : State) : (s.settleEvent s0).segregation = s.segregation := by
  simp [State.settleEvent]

@[simp] theorem State.settleEvent_poolInUse (s s0 : State) : (s.settleEvent s0).poolInUse = s.poolInUse := by
  simp [State.settleEvent]

@[simp] theorem State.settleEvent_monitor (s s0 : State) : (s.settleEvent s0).monitor = s.monitor := by
  simp [State.settleEvent]

@[simp] theorem State.settleEvent_seqNext (s s0 : State) : (s.settleEvent s0).seqNext = s.seqNext := by
  simp [State.settleEvent]

@[simp] theorem State.settleEvent_movements (s s0 : State) : (s.settleEvent s0).movements = s.movements := by
  simp [State.settleEvent]

@[simp] theorem State.settleEvent_timeout (s s0 : State) : (s.settleEvent s0).timeout = s.timeout := by
  simp [State.settleEvent]

@[simp] theorem State.settleEvent_waiting (s s0 : State) : (s.settleEvent s0).waiting = s.waiting := by
  simp [State.settleEvent]

@[simp] theorem State.settleEvent_clock (s s0 : State) : (s.settleEvent s0).clock = s.clock := by
  simp [State.settleEvent]

@[simp] theorem State.settleEvent_inputs (s s0 : State) : (s.settleEvent s0).inputs = s.inputs := by
  simp [State.settleEvent]

@[simp] theorem State.settleEvent_control (s s0 : State) : (s.settleEvent s0).control = s.control := by
  simp [State.settleEvent]

@[simp] theorem State.settleEvent_pending (s s0 : State) : (s.settleEvent s0).pending = s.pending := by
  simp [State.settleEvent]

@[simp] theorem State.settleEvent_account (s s0 : State) :
    (s.settleEvent s0).account = (s.reviseAccount s0).account := by
  simp [State.settleEvent]

@[simp] theorem State.settleEvent_get (s s0 : State) (o : Station) :
    (s.settleEvent s0).links.get o = (s.links.get o).release := by
  simp [State.settleEvent]

/-- The end of an event keeps everything outside the links, the image and the plan. -/
theorem State.finish_keeps (s1 s0 : State) (r : Option (Station × Frame)) (head tail : List Notice)
    (named : Bool) : State.KeepsRest s1 (s1.finish s0 r head tail named) := by
  have k := (s1.report s0 r head tail).passIf_keeps (triggered s0 s1 named)
  unfold State.finish
  constructor <;>
    simp [k.stations, k.isSealed, k.sections, k.gap, k.segregation, k.monitor, k.timeout, k.clock, k.inputs,
      k.control, k.pending]

/-- The end of an event grows every link from the reply on. -/
theorem State.finish_grown (s1 s0 : State) (r : Option (Station × Frame)) (head tail : List Notice)
    (named : Bool) (o : Station) :
    ((s1.answer r).links.get o).GrownTo ((s1.finish s0 r head tail named).links.get o) := by
  have h1 := State.report_grown s1 s0 r head tail o
  have h2 := State.passIf_grown (s1.report s0 r head tail) (triggered s0 s1 named) o
  unfold State.finish
  rw [State.settleEvent_get]
  exact (h1.trans h2).trans (Link.release_grown _)

/-- The end of an event writes the retained contents as they then stand (R169). -/
theorem State.finish_image (s1 s0 : State) (r : Option (Station × Frame)) (head tail : List Notice)
    (named : Bool) :
    (s1.finish s0 r head tail named).store =
      { image := (s1.finish s0 r head tail named).image, intact := true } := rfl

/-- An event that runs no pass, or none that is allowed, ends with its own changes, the notices placed,
the lanes and the account revised. -/
theorem State.finish_without_pass (s1 s0 : State) (r : Option (Station × Frame))
    (head tail : List Notice) (named : Bool)
    (h : triggered s0 s1 named = false ∨ s1.passAllowed = false ∨ s1.waiting = []) :
    s1.finish s0 r head tail named = (s1.report s0 r head tail).settleEvent s0 := by
  unfold State.finish State.passIf
  split
  · rename_i ht
    have hp : (s1.report s0 r head tail).runPass = (s1.report s0 r head tail, []) := by
      rcases h with h | h | h
      · simp [ht] at h
      · apply State.runPass_of_not_allowed
        unfold State.passAllowed State.mode at h ⊢
        rw [State.report_control, State.report_monitor]
        exact h
      · apply State.runPass_of_empty
        simpa using h
    rw [hp]
    rfl
  · rfl

/-! Taking a request -/

/-- A request of the kind asked for is handed to its handler and the event is brought to its end. -/
theorem State.take_eq (s : State) (st : Station) (isKind : Nat → Bool) (handle : Frame → State → Taken)
    (f : Frame) (h : s.nextRequest st = some f) (hk : isKind f.kind.toNat = true) :
    s.take st isKind handle =
      .next ((handle f (s.popMailbox st)).state.finish (s.popMailbox st)
        (some (st, replyFrame f (handle f (s.popMailbox st)).reply)) (handle f (s.popMailbox st)).head
        (handle f (s.popMailbox st)).tail (handle f (s.popMailbox st)).trigger) := by
  simp [State.take, h, hk]

/-- With no such request nothing happens. -/
theorem State.take_idle (s : State) (st : Station) (isKind : Nat → Bool)
    (handle : Frame → State → Taken)
    (h : ∀ f, s.nextRequest st = some f → isKind f.kind.toNat = false) :
    s.take st isKind handle = .next s := by
  unfold State.take
  split
  · rename_i f hf
    simp [h f hf]
  · rfl

/-- Taking a request always answers a next state. -/
theorem State.take_next (s : State) (st : Station) (isKind : Nat → Bool) (handle : Frame → State → Taken) :
    ∃ t, s.take st isKind handle = .next t := by
  unfold State.take
  split
  · split <;> exact ⟨_, rfl⟩
  · exact ⟨_, rfl⟩

end Sys2Proof.Machine
end

