-- ==== Sys2Proof/Laws/Quiet.lean ====
section
/-! SUPPORT. Events that leave the plan alone: with the same lanes, sections, gap, zones, account and
presences before and after, no lane is reported, no revision rises and no pass runs. -/

namespace Sys2Proof.Machine

theorem State.displayed_congr {s t : State} (h1 : t.sections = s.sections) (h2 : t.gap = s.gap)
    (l : Lane) : t.displayed l = s.displayed l := by
  have h3 : t.laneAway l = s.laneAway l := by unfold State.laneAway; rw [h1]
  have h4 : t.laneMoving l = s.laneMoving l := by
    unfold State.laneMoving State.laneSection; rw [h1]
  have h5 : t.fill l = s.fill l := by unfold State.fill State.laneEnd; rw [h2]
  unfold State.displayed
  rw [h3, h4, h5]

theorem contentChanged_self {s t : State} (h1 : t.sections = s.sections) (h2 : t.gap = s.gap)
    (l : Lane) : contentChanged s t l l = false := by
  simp [contentChanged, State.displayed_congr h1 h2]

theorem reportChanged_self {s t : State} (h1 : t.sections = s.sections) (h2 : t.gap = s.gap)
    (l : Lane) : reportChanged s t l l = false := by
  simp [reportChanged, State.displayed_congr h1 h2]

theorem State.lanes_rising {s : State} (h : s.tablesOk) : s.lanes.risingAbove 0 := by
  simp only [State.tablesOk, Table.wf, Bool.and_eq_true] at h
  exact h.1.1.1.1.1

theorem State.zones_rising {s : State} (h : s.tablesOk) : s.zones.risingAbove 0 := by
  simp only [State.tablesOk, Table.wf, Bool.and_eq_true] at h
  exact h.1.1.1.2.1

theorem State.reviseFrom_same {s t : State} (h : s.tablesOk) (h0 : t.lanes = s.lanes)
    (h1 : t.sections = s.sections) (h2 : t.gap = s.gap) : t.reviseFrom s = t := by
  have e : t.lanes.map (revisedLane s t) = t.lanes := by
    rw [h0]
    conv_rhs => rw [← List.map_id s.lanes]
    apply List.map_congr_left
    intro p hp
    unfold revisedLane
    rw [Table.get_of_mem (State.lanes_rising h) hp]
    simp [contentChanged_self h1 h2]
  unfold State.reviseFrom
  rw [e]

theorem laneReports_same {s t : State} (h : s.tablesOk) (h0 : t.lanes = s.lanes)
    (h1 : t.sections = s.sections) (h2 : t.gap = s.gap) : laneReports s t = [] := by
  unfold laneReports
  rw [h0, List.filterMap_eq_nil_iff]
  intro p hp
  unfold laneReport
  rw [Table.get_of_mem (State.lanes_rising h) hp]
  simp [reportChanged_self h1 h2]

theorem becameOffered_same {s t : State} (h : s.tablesOk) (h0 : t.lanes = s.lanes)
    (h1 : t.sections = s.sections) (h2 : t.gap = s.gap) : becameOffered s t = false := by
  unfold becameOffered
  rw [h0, List.any_eq_false]
  intro p hp
  unfold newlyOffered
  rw [Table.get_of_mem (State.lanes_rising h) hp]
  simp [State.displayed_congr h1 h2]

theorem accountChanged_same {s t : State} (h : s.tablesOk) (h0 : t.zones = s.zones)
    (h1 : t.account = s.account) (h2 : t.heff = s.heff) : accountChanged s t = false := by
  have hz : t.zones.any (zoneChanged s) = false := by
    rw [h0, List.any_eq_false]
    intro p hp
    unfold zoneChanged
    rw [Table.get_of_mem (State.zones_rising h) hp]
    simp
  unfold accountChanged
  rw [h1, h2, hz]
  simp

/-- A quiet event: the lanes and what they are derived from, the account and the allowance in effect, and the
mode are as they were before it. -/
structure QuietFrom (s t : State) : Prop where
  lanes : t.lanes = s.lanes
  sections : t.sections = s.sections
  gap : t.gap = s.gap
  zones : t.zones = s.zones
  account : t.account = s.account
  heff : t.heff = s.heff
  control : t.control = s.control

theorem reviseLanes_quiet {s t : State} (h : s.tablesOk) (q : QuietFrom s t) : t.reviseLanes s = t := by
  unfold State.reviseLanes
  rw [State.reviseFrom_same h q.lanes q.sections q.gap]
  simp

theorem triggered_quiet {s t : State} (h : s.tablesOk) (q : QuietFrom s t) :
    triggered s t false = false := by
  have hm : t.mode = s.mode := by simp [State.mode, q.control]
  simp [triggered, becameOffered_same h q.lanes q.sections q.gap, hm]

/-- A quiet event that sends notices only ends with them placed behind the reply. -/
theorem State.finish_quiet {s t : State} (h : s.tablesOk) (q : QuietFrom s t)
    (r : Option (Station × Frame)) (head tail : List Notice) :
    t.finish s r head tail false = ((t.answer r).sendAll (head ++ tail)).releaseAll.commit := by
  rw [State.finish_without_pass t s r head tail false (Or.inl (triggered_quiet h q))]
  have hw : watchedReports s t t = [] := by
    unfold watchedReports
    rw [laneReports_same h q.lanes q.sections q.gap]
    simp
  unfold State.report
  rw [reviseLanes_quiet h q, hw, List.append_nil]
  have ha : accountChanged s ((t.answer r).sendAll (head ++ tail)) = false :=
    accountChanged_same h (by simp [q.zones]) (by simp [q.account]) (by simpa [State.heff] using q.heff)
  unfold State.settleEvent State.reviseAccount
  rw [ha]
  simp

/-- A quiet request that sends no notice places its reply, and that is all. -/
theorem State.finish_concluded {s t : State} (h : s.tablesOk) (q : QuietFrom s t) (st : Station)
    (f : Frame) : t.finish s (some (st, f)) [] [] false = t.concluded st f := by
  rw [State.finish_quiet h q]
  rfl

end Sys2Proof.Machine
end

