-- ==== Sys2Proof/Laws/Passes.lean ====
section
/-! SUPPORT. What an event and its re-examination pass leave of the state the event's own changes make:
the relation `State.PassedInto`, the form `eventEnd`, and what stands on the links. -/

namespace Sys2Proof.Machine

/-! Tables changed record by record -/

theorem Table.mapAll_mapAll {α β γ : Type} (t : Table α) (f : α → β) (g : β → γ) :
    (t.mapAll f).mapAll g = t.mapAll (g ∘ f) := by
  simp [Table.mapAll, Function.comp_def]

theorem Table.mapAll_modify {α β : Type} (t : Table α) (n : Nat) (f : α → α) (g : α → β)
    (h : ∀ a, g (f a) = g a) : (t.modify n f).mapAll g = t.mapAll g := by
  simp only [Table.mapAll, Table.modify, List.map_map]
  apply List.map_congr_left
  intro p _
  simp only [Function.comp_def]
  split <;> simp [h]

theorem onZone_unloaded (zones : Table Zone) (z : Option Nat) (m : Nat) :
    (onZone zones z (Zone.addPending m)).mapAll Zone.unloaded = zones.mapAll Zone.unloaded := by
  cases z with
  | none => rfl
  | some n => exact Table.mapAll_modify _ _ _ _ fun _ => rfl

/-! Lanes that have grown -/

theorem Lane.GrownInto.refl (a : Lane) : a.GrownInto a := ⟨rfl, [], by simp, by simp⟩

theorem Lane.GrownInto.trans {a b c : Lane} (h : a.GrownInto b) (k : b.GrownInto c) : a.GrownInto c := by
  obtain ⟨more, h1, h2⟩ := h.entries
  obtain ⟨rest, k1, k2⟩ := k.entries
  refine ⟨?_, more ++ rest, by rw [k1, h1, List.append_assoc], ?_⟩
  · have hs := h.same
    have ks := k.same
    cases a; cases b; cases c
    simp_all
  · intro e he
    rcases List.mem_append.mp he with he | he
    · exact h2 e he
    · exact k2 e he

theorem Lane.grownInto_of_unrevised {a b : Lane} (h : b.unrevised = a.unrevised) : a.GrownInto b := by
  refine ⟨?_, [], ?_, by simp⟩
  · cases a; cases b; simp_all [Lane.unrevised]
  · cases a; cases b; simp_all [Lane.unrevised]

theorem lanesGrown.refl (a : Table Lane) : lanesGrown a a := by
  induction a with
  | nil => exact .nil
  | cons p rest ih => exact .cons ⟨rfl, .refl _⟩ ih

theorem lanesGrown.trans {a b c : Table Lane} (h : lanesGrown a b) (k : lanesGrown b c) :
    lanesGrown a c := by
  induction h generalizing c with
  | nil => cases k; exact .nil
  | cons h1 _ ih =>
    cases k with
    | cons k1 k2 => exact .cons ⟨h1.1.trans k1.1, h1.2.trans k1.2⟩ (ih k2)

theorem lanesGrown_modify (t : Table Lane) (n : Nat) (f : Lane → Lane) (h : ∀ l : Lane, l.GrownInto (f l)) :
    lanesGrown t (t.modify n f) := by
  unfold Table.modify
  induction t with
  | nil => exact .nil
  | cons p rest ih =>
    refine .cons ?_ ih
    dsimp only
    split
    · exact ⟨rfl, h _⟩
    · exact ⟨rfl, .refl _⟩

theorem lanesGrown_of_unrevised {a b : Table Lane}
    (h : b.mapAll Lane.unrevised = a.mapAll Lane.unrevised) : lanesGrown a b := by
  induction a generalizing b with
  | nil => cases b with
    | nil => exact .nil
    | cons q rest => simp [Table.mapAll] at h
  | cons p rest ih => cases b with
    | nil => simp [Table.mapAll] at h
    | cons q more =>
      simp only [Table.mapAll, List.map_cons, List.cons.injEq, Prod.mk.injEq] at h
      exact .cons ⟨h.1.1.symm, Lane.grownInto_of_unrevised h.1.2⟩ (ih h.2)

/-! The same plan -/

theorem State.KeepsRest.refl (s : State) : s.KeepsRest s :=
  ⟨rfl, rfl, rfl, rfl, rfl, rfl, rfl, rfl, rfl, rfl, rfl⟩

theorem State.KeepsRest.trans {s t u : State} (h : s.KeepsRest t) (k : t.KeepsRest u) : s.KeepsRest u where
  stations := k.stations.trans h.stations
  isSealed := k.isSealed.trans h.isSealed
  sections := k.sections.trans h.sections
  gap := k.gap.trans h.gap
  segregation := k.segregation.trans h.segregation
  monitor := k.monitor.trans h.monitor
  timeout := k.timeout.trans h.timeout
  clock := k.clock.trans h.clock
  inputs := k.inputs.trans h.inputs
  control := k.control.trans h.control
  pending := k.pending.trans h.pending

theorem State.SamePlan.refl (s : State) : s.SamePlan s := ⟨rfl, rfl, rfl, rfl, rfl, rfl, rfl, rfl, rfl⟩

theorem State.SamePlan.trans {s t u : State} (h : s.SamePlan t) (k : t.SamePlan u) : s.SamePlan u where
  register := k.register.trans h.register
  lanes := k.lanes.trans h.lanes
  zones := k.zones.trans h.zones
  ramps := k.ramps.trans h.ramps
  poolInUse := k.poolInUse.trans h.poolInUse
  account := k.account.trans h.account
  seqNext := k.seqNext.trans h.seqNext
  movements := k.movements.trans h.movements
  waiting := k.waiting.trans h.waiting

theorem State.reviseLanes_unrevised (s s0 : State) :
    (s.reviseLanes s0).lanes.mapAll Lane.unrevised = s.lanes.mapAll Lane.unrevised := by
  unfold State.reviseLanes
  split
  · simp only [State.reviseFrom, Table.mapAll, List.map_map]
    apply List.map_congr_left
    intro p _
    simp only [Function.comp_def, revisedLane]
    split
    · split <;> rfl
    · rfl
  · rfl

/-- An event up to its pass leaves the plan that its own changes made. -/
theorem State.report_samePlan (s s0 : State) (r : Option (Station × Frame)) (h t : List Notice) :
    s.SamePlan (s.report s0 r h t) := by
  constructor <;> simp [State.unrevisedLanes, State.reviseLanes_unrevised]

theorem State.report_keepsRest (s s0 : State) (r : Option (Station × Frame)) (h t : List Notice) :
    s.KeepsRest (s.report s0 r h t) := by
  constructor <;> simp

/-- The end of an event leaves the plan as it is. -/
theorem State.settleEvent_samePlan (s s0 : State) : s.SamePlan (s.settleEvent s0) := by
  constructor <;> simp only [State.unrevisedLanes, State.settleEvent_register, State.settleEvent_lanes,
    State.settleEvent_zones, State.settleEvent_ramps, State.settleEvent_poolInUse,
    State.settleEvent_seqNext, State.settleEvent_movements, State.settleEvent_waiting,
    State.settleEvent_account]
  unfold State.reviseAccount
  split <;> rfl

/-! The pass -/

/-- What a pass may add to the plan. -/
structure PassGrows (s t : State) : Prop where
  lanes : lanesGrown s.lanes t.lanes
  zones : t.zones.mapAll Zone.unloaded = s.zones.mapAll Zone.unloaded
  ramps : t.ramps.mapAll Ramp.uncounted = s.ramps.mapAll Ramp.uncounted
  account : { t.account with pPlus := 0, pMinus := 0, revision := 0 } =
    { s.account with pPlus := 0, pMinus := 0, revision := 0 }
  movements : s.movements <+: t.movements
  waiting : (t.waiting.map (·.booking)).Sublist (s.waiting.map (·.booking))
  register : t.register.map UnitRecord.unstated = s.register.map UnitRecord.unstated

theorem PassGrows.refl (s : State) : PassGrows s s :=
  ⟨.refl _, rfl, rfl, rfl, List.prefix_rfl, .refl _, rfl⟩

theorem PassGrows.trans {s t u : State} (h : PassGrows s t) (k : PassGrows t u) : PassGrows s u where
  lanes := h.lanes.trans k.lanes
  zones := k.zones.trans h.zones
  ramps := k.ramps.trans h.ramps
  account := k.account.trans h.account
  movements := h.movements.trans k.movements
  waiting := k.waiting.trans h.waiting
  register := k.register.trans h.register

theorem PassGrows.of_samePlan {s t : State} (h : s.SamePlan t) : PassGrows s t where
  lanes := lanesGrown_of_unrevised h.lanes
  zones := by rw [h.zones]
  ramps := by rw [h.ramps]
  account := by
    have e := h.account
    simp only [Account.mk.injEq] at e ⊢
    simp_all
  movements := by rw [h.movements]
  waiting := by rw [h.waiting]
  register := by rw [h.register]

theorem State.setUnitState_unstated (s : State) (b : Booking) (st : UnitState) :
    (s.setUnitState b st).register.map UnitRecord.unstated = s.register.map UnitRecord.unstated := by
  simp only [State.setUnitState, List.map_map]
  apply List.map_congr_left
  intro r _
  simp only [Function.comp_def]
  split <;> rfl

theorem State.reserveLoad_grows (s : State) (ramp : Nat) (b : Booking) (u : UnitBody) (p : SlotPlace) :
    PassGrows s (s.reserveLoad ramp b u p) where
  lanes := by
    refine lanesGrown_modify s.lanes p.lane
      (fun l => { l with
        entries := l.entries ++ [{ booking := b, unit := u, offset := p.offset, state := .reserved }] })
      fun l => ⟨rfl, [_], rfl, ?_⟩
    intro e he
    rw [List.mem_singleton] at he
    rw [he]
  zones := onZone_unloaded _ _ _
  ramps := Table.mapAll_modify s.ramps ramp (fun q => { q with count := q.count + 1 }) Ramp.uncounted
    fun _ => rfl
  account := rfl
  movements := List.prefix_append _ _
  waiting := .refl _
  register := State.setUnitState_unstated _ _ _

theorem State.admitWaiting_grows (s : State) (w : Waiting) (u : UnitBody) (n : Nat) (l : Lane) :
    PassGrows s (s.admitWaiting w u n l).1 := by
  have h1 : PassGrows s (s.dropWaiting w.booking) :=
    { PassGrows.refl s with waiting := (List.filter_sublist).map _ }
  have h2 := (s.dropWaiting w.booking).reserveLoad_grows w.ramp w.booking u (s.slotOf n l u)
  have h3 : PassGrows ((s.dropWaiting w.booking).reserveLoad w.ramp w.booking u (s.slotOf n l u))
      (s.admitWaiting w u n l).1 :=
    { PassGrows.refl _ with
      lanes := lanesGrown_modify _ n Lane.revise fun l => ⟨rfl, [], by simp [Lane.revise], by simp⟩ }
  exact (h1.trans h2).trans h3

theorem State.failExamination_grows (s : State) (w : Waiting) (rs : Reasons) :
    PassGrows s (s.failExamination w rs).1 := by
  unfold State.failExamination
  split
  · exact
      { PassGrows.refl s with
        waiting := (List.filter_sublist).map _
        register := State.setUnitState_unstated _ _ _ }
  · refine { PassGrows.refl s with waiting := ?_ }
    have e : (s.setWaiting { w with retries := w.retries + 1, reasons := rs }).waiting.map (·.booking) =
        s.waiting.map (·.booking) := by
      simp only [State.setWaiting, List.map_map]
      apply List.map_congr_left
      intro q _
      simp only [Function.comp_def]
      split
      · rename_i hq; exact hq.symm
      · rfl
    rw [e]

theorem State.passElement_grows (s : State) (w : Waiting) : PassGrows s (s.passElement w).1 := by
  unfold State.passElement
  split
  · split
    · exact .refl s
    · split
      · exact s.failExamination_grows _ _
      · split
        · exact s.admitWaiting_grows _ _ _ _
        · exact .refl s
  · exact .refl s

theorem State.passOver_grows (s : State) (ws : List Waiting) : PassGrows s (s.passOver ws).1 := by
  induction ws generalizing s with
  | nil => exact .refl s
  | cons w rest ih => exact (s.passElement_grows w).trans (ih _)

/-- A pass adds admissions to the plan and does nothing else (R125 to R128). -/
theorem State.runPass_grows (s : State) : PassGrows s s.runPass.1 := by
  unfold State.runPass
  split
  · exact s.passOver_grows _
  · exact .refl s

theorem State.passIf_grows (s : State) (run : Bool) : PassGrows s (s.passIf run) := by
  unfold State.passIf
  split
  · have k := s.runPass_grows
    constructor <;> simp [k.lanes, k.zones, k.ramps, k.account, k.movements, k.waiting, k.register]
  · exact .refl s

/-! The end of an event -/

/-- A pass makes of a state one it has passed into. -/
theorem State.runPass_passedInto (s : State) : s.PassedInto s.runPass.1 := by
  have g := s.runPass_grows
  have k := s.runPass_keeps
  exact
    { rest := ⟨k.stations, k.isSealed, k.sections, k.gap, k.segregation, k.monitor, k.timeout, k.clock,
        k.inputs, k.control, k.pending⟩
      lanes := g.lanes, zones := g.zones, ramps := g.ramps, account := g.account
      movements := g.movements, waiting := g.waiting, register := g.register
      still := fun h => by
        rcases h with h | h
        · rw [s.runPass_of_not_allowed h]; exact .refl s
        · rw [s.runPass_of_empty h]; exact .refl s }

theorem State.sendAll_links_congr {s t : State} (h : s.links = t.links) (k : s.stations = t.stations)
    (ns : List Notice) : (s.sendAll ns).links = (t.sendAll ns).links := by
  induction ns generalizing s t with
  | nil => exact h
  | cons n rest ih =>
    refine ih (s := s.send n) (t := t.send n) ?_ k
    simp only [State.send, h, k]

/-! A pass reads neither the links nor the image -/

/-- The state with other links and another store. -/
def State.relinked (s : State) (l : PerStation Link) (x : Store) : State := { s with links := l, store := x }

theorem State.failExamination_relinked (s : State) (l : PerStation Link) (x : Store) (w : Waiting)
    (rs : Reasons) : (s.relinked l x).failExamination w rs =
      ((s.failExamination w rs).1.relinked l x, (s.failExamination w rs).2) := by
  unfold State.failExamination
  split <;> rfl

theorem State.passElement_relinked (s : State) (l : PerStation Link) (x : Store) (w : Waiting) :
    (s.relinked l x).passElement w = ((s.passElement w).1.relinked l x, (s.passElement w).2) := by
  unfold State.passElement
  rw [show (s.relinked l x).fittedRamp w.ramp = s.fittedRamp w.ramp from rfl,
    show (s.relinked l x).findRecord w.booking = s.findRecord w.booking from rfl]
  cases s.fittedRamp w.ramp with
  | none => rfl
  | some r => cases s.findRecord w.booking with
    | none => rfl
    | some unit =>
      dsimp only
      cases r.suspended with
      | true => rfl
      | false =>
        rw [show (s.relinked l x).evaluate r unit.body = s.evaluate r unit.body from rfl]
        cases s.evaluate r unit.body with
        | held rs => exact s.failExamination_relinked l x w rs
        | chosen n =>
          dsimp only
          rw [show (s.relinked l x).lanes = s.lanes from rfl]
          cases Table.get s.lanes n <;> rfl

theorem State.passOver_relinked (s : State) (l : PerStation Link) (x : Store) (ws : List Waiting) :
    (s.relinked l x).passOver ws = ((s.passOver ws).1.relinked l x, (s.passOver ws).2) := by
  induction ws generalizing s with
  | nil => rfl
  | cons w rest ih =>
    unfold State.passOver
    rw [s.passElement_relinked l x w]
    dsimp only
    rw [ih]

theorem State.runPass_relinked (s : State) (l : PerStation Link) (x : Store) :
    (s.relinked l x).runPass = (s.runPass.1.relinked l x, s.runPass.2) := by
  unfold State.runPass
  rw [show (s.relinked l x).passAllowed = s.passAllowed from rfl]
  cases s.passAllowed with
  | false => rfl
  | true => exact s.passOver_relinked l x s.waiting

/-! The end of an event, links and plan apart -/

theorem State.reviseLanes_relinked (b s : State) (l m : PerStation Link) (x y : Store) :
    (b.relinked l x).reviseLanes (s.relinked m y) = (b.reviseLanes s).relinked l x := by
  unfold State.reviseLanes
  rw [show lanesWatched (s.relinked m y) (b.relinked l x) = lanesWatched s b from rfl]
  cases lanesWatched s b <;> rfl

theorem State.sendAll_relinked (s : State) (ns : List Notice) :
    s.sendAll ns = s.relinked (s.sendAll ns).links s.store := by
  conv_lhs => rw [State.sendAll_frame]
  rfl

theorem State.reviseAccount_relinked (b s : State) (l m : PerStation Link) (x y : Store) :
    (b.relinked l x).reviseAccount (s.relinked m y) = (b.reviseAccount s).relinked l x := by
  unfold State.reviseAccount
  rw [show accountChanged (s.relinked m y) (b.relinked l x) = accountChanged s b from rfl]
  cases accountChanged s b <;> rfl

theorem State.answer_relinked (s : State) (r : Option (Station × Frame)) :
    s.answer r = s.relinked (s.answer r).links s.store := by
  cases r <;> rfl

/-- What every event comes to: an event that reaches `s1` from `s0` ends as `eventEnd` says of any `b` and
`s` that differ from the two in links and image alone, its notices on the links that the reply leaves. -/
theorem State.finish_eventEnd (s1 s0 b s q : State) (r : Option (Station × Frame))
    (head tail : List Notice) (named : Bool) (hb : s1 = b.relinked s1.links s1.store)
    (h0 : s0 = s.relinked s0.links s0.store) (hl : (s1.answer r).links = q.links)
    (hs : q.stations = b.stations) :
    s1.finish s0 r head tail named = eventEnd s b q head tail named := by
  have hw : s1.reviseLanes s0 = (b.reviseLanes s).relinked s1.links s1.store := by
    rw [hb, h0]; exact State.reviseLanes_relinked b s _ _ _ _
  have hn : watchedReports s0 s1 (s1.reviseLanes s0) = watchedReports s b (b.reviseLanes s) := by
    rw [hw, hb, h0]; rfl
  have ht : triggered s0 s1 named = triggered s b named := by rw [hb, h0]; rfl
  have hr : s1.report s0 r head tail = (b.reviseLanes s).relinked
      (q.sendAll (head ++ watchedReports s b (b.reviseLanes s) ++ tail)).links s1.store := by
    unfold State.report
    rw [hn, State.sendAll_relinked]
    have e : ((s1.reviseLanes s0).answer r).links = q.links := by
      rw [← hl]
      cases r with
      | none => simp [State.answer]
      | some p => simp [State.answer, State.reply, State.setLink]
    have e2 : ((s1.reviseLanes s0).answer r).stations = q.stations := by
      rw [State.answer_stations, State.reviseLanes_stations, hs, hb]; rfl
    rw [State.sendAll_links_congr e e2, State.answer_relinked, hw]
    rfl
  have hp : (s1.report s0 r head tail).passIf (triggered s0 s1 named) =
      (afterPass s b named).1.relinked
        (q.sendAll (eventNotices s b head tail named)).links s1.store := by
    unfold State.passIf afterPass eventNotices afterPass
    rw [ht, hr]
    cases triggered s b named with
    | false => simp
    | true =>
      simp only [if_true]
      rw [State.runPass_relinked, State.sendAll_relinked,
        State.sendAll_append q (head ++ watchedReports s b (b.reviseLanes s) ++ tail)]
      have k := (b.reviseLanes s).runPass_keeps
      have e2 : ((b.reviseLanes s).runPass.1.relinked
          (q.sendAll (head ++ watchedReports s b (b.reviseLanes s) ++ tail)).links s1.store).stations =
          (q.sendAll (head ++ watchedReports s b (b.reviseLanes s) ++ tail)).stations := by
        rw [State.sendAll_stations, hs]
        exact k.stations.trans (State.reviseLanes_stations b s)
      have e3 := State.sendAll_links_congr
        (s := (b.reviseLanes s).runPass.1.relinked
          (q.sendAll (head ++ watchedReports s b (b.reviseLanes s) ++ tail)).links s1.store)
        (t := q.sendAll (head ++ watchedReports s b (b.reviseLanes s) ++ tail))
        (rfl) e2 (b.reviseLanes s).runPass.2
      show (b.reviseLanes s).runPass.1.relinked (State.sendAll _ _).links s1.store = _
      rw [e3]
  unfold State.finish State.settleEvent
  rw [hp, h0, State.reviseAccount_relinked]
  rfl

/-- An event's links continue those its own changes leave, the reply and the first notices placed. -/
theorem State.finish_leadsTo (s1 s0 : State) (r : Option (Station × Frame)) (head tail : List Notice)
    (named : Bool) : ((s1.answer r).sendAll head).LeadsTo (s1.finish s0 r head tail named) := by
  refine ⟨fun o => ?_, rfl⟩
  have e1 : ((s1.reviseLanes s0).answer r).links = (s1.answer r).links := by
    cases r with
    | none => simp [State.answer]
    | some p => simp [State.answer, State.reply, State.setLink]
  have e2 : ((s1.reviseLanes s0).answer r).stations = (s1.answer r).stations := by
    cases r with
    | none => simp [State.answer]
    | some p => simp [State.answer, State.reply, State.setLink]
  have h1 : (((s1.answer r).sendAll head).links.get o).GrownTo
      ((s1.report s0 r head tail).links.get o) := by
    unfold State.report
    rw [List.append_assoc, State.sendAll_append, ← State.sendAll_links_congr e1 e2 head]
    exact State.sendAll_grown _ _ _
  have h2 := State.passIf_grown (s1.report s0 r head tail) (triggered s0 s1 named) o
  unfold State.finish
  rw [State.settleEvent_get]
  exact (h1.trans h2).trans (Link.release_grown _)

end Sys2Proof.Machine
end

