-- ==== Sys2Proof/Laws/PerInstr.lean ====
section
/-! SUPPORT. A law of the table for each command: a command that takes a request names a kind of Table 12-2,
takes it from the link of its one operand and so is well formed, and is admitted on its link for some
station and in some mode. -/

namespace Sys2Proof.Laws

open Sys2Proof.Machine

/-- The request's kind is one of Table 12-2, its operand is well formed, and some station may send it in some
mode that takes frames (Table 9-1, R164). -/
def StationScope.Statement (i : Instr) : Prop :=
  ∀ (code : Nat) (st : Station), requestOf i = some (code, st) →
    isRequestKind code = true ∧ i.wf = true ∧ (∃ o, authorised code o = true) ∧
      ∃ m, m ≠ Mode.powerDown ∧ takenIn code m = true

theorem StationScope.of_request {i : Instr} {k : Nat} {o : Station} (h : requestOf i = some (k, o))
    (a : isRequestKind k = true) (b : i.wf = true) (w : Station) (c : authorised k w = true) (m : Mode)
    (d : m ≠ .powerDown) (e : takenIn k m = true) : StationScope.Statement i := by
  intro code st hq
  rw [h] at hq
  cases hq
  exact ⟨a, b, ⟨w, c⟩, m, d, e⟩

theorem StationScope.of_event {i : Instr} (h : requestOf i = none) : StationScope.Statement i := by
  intro code st hq
  rw [h] at hq
  cases hq

theorem StationScope.defLane (st : Station) : StationScope.Statement (.defLane st) :=
  StationScope.of_request rfl rfl rfl .loading rfl .profile (by decide) rfl
theorem StationScope.defZone (st : Station) : StationScope.Statement (.defZone st) :=
  StationScope.of_request rfl rfl rfl .loading rfl .profile (by decide) rfl
theorem StationScope.defRamp (st : Station) : StationScope.Statement (.defRamp st) :=
  StationScope.of_request rfl rfl rfl .loading rfl .profile (by decide) rfl
theorem StationScope.defSection (st : Station) : StationScope.Statement (.defSection st) :=
  StationScope.of_request rfl rfl rfl .loading rfl .profile (by decide) rfl
theorem StationScope.defShip (st : Station) : StationScope.Statement (.defShip st) :=
  StationScope.of_request rfl rfl rfl .loading rfl .profile (by decide) rfl
theorem StationScope.sealPlan (st : Station) : StationScope.Statement (.sealPlan st) :=
  StationScope.of_request rfl rfl rfl .loading rfl .profile (by decide) rfl
theorem StationScope.clearPlan (st : Station) : StationScope.Statement (.clearPlan st) :=
  StationScope.of_request rfl rfl rfl .loading rfl .run (by decide) rfl
theorem StationScope.band (st : Station) : StationScope.Statement (.band st) :=
  StationScope.of_request rfl rfl rfl .loading rfl .run (by decide) rfl
theorem StationScope.heelModel (st : Station) : StationScope.Statement (.heelModel st) :=
  StationScope.of_request rfl rfl rfl .loading rfl .run (by decide) rfl
theorem StationScope.tanks (st : Station) : StationScope.Statement (.tanks st) :=
  StationScope.of_request rfl rfl rfl .loading rfl .run (by decide) rfl
theorem StationScope.releaseStop (st : Station) : StationScope.Statement (.releaseStop st) :=
  StationScope.of_request rfl rfl rfl .loading rfl .run (by decide) rfl
theorem StationScope.timeout (st : Station) : StationScope.Statement (.timeout st) :=
  StationScope.of_request rfl rfl rfl .loading rfl .run (by decide) rfl
theorem StationScope.cutoff (st : Station) : StationScope.Statement (.cutoff st) :=
  StationScope.of_request rfl rfl rfl .loading rfl .run (by decide) rfl
theorem StationScope.clock (st : Station) : StationScope.Statement (.clock st) :=
  StationScope.of_request rfl rfl rfl .loading rfl .run (by decide) rfl
theorem StationScope.resume (st : Station) : StationScope.Statement (.resume st) :=
  StationScope.of_request rfl rfl rfl .loading rfl .run (by decide) rfl
theorem StationScope.linkReset (st : Station) : StationScope.Statement (.linkReset st) :=
  StationScope.of_request rfl rfl rfl .loading rfl .run (by decide) rfl
theorem StationScope.suspendRamp (st : Station) : StationScope.Statement (.suspendRamp st) :=
  StationScope.of_request rfl rfl rfl .loading rfl .run (by decide) rfl
theorem StationScope.resumeRamp (st : Station) : StationScope.Statement (.resumeRamp st) :=
  StationScope.of_request rfl rfl rfl .loading rfl .run (by decide) rfl
theorem StationScope.move (st : Station) : StationScope.Statement (.move st) :=
  StationScope.of_request rfl rfl rfl .loading rfl .run (by decide) rfl
theorem StationScope.cancelMove (st : Station) : StationScope.Statement (.cancelMove st) :=
  StationScope.of_request rfl rfl rfl .loading rfl .run (by decide) rfl
theorem StationScope.clearFault (st : Station) : StationScope.Statement (.clearFault st) :=
  StationScope.of_request rfl rfl rfl .loading rfl .run (by decide) rfl
theorem StationScope.announce (st : Station) : StationScope.Statement (.announce st) :=
  StationScope.of_request rfl rfl rfl .yard rfl .run (by decide) rfl
theorem StationScope.withdraw (st : Station) : StationScope.Statement (.withdraw st) :=
  StationScope.of_request rfl rfl rfl .yard rfl .run (by decide) rfl
theorem StationScope.setPriority (st : Station) : StationScope.Statement (.setPriority st) :=
  StationScope.of_request rfl rfl rfl .yard rfl .run (by decide) rfl
theorem StationScope.setMask (st : Station) : StationScope.Statement (.setMask st) :=
  StationScope.of_request rfl rfl rfl .yard rfl .run (by decide) rfl
theorem StationScope.arrive (st : Station) : StationScope.Statement (.arrive st) :=
  StationScope.of_request rfl rfl rfl .ramp1 rfl .run (by decide) rfl
theorem StationScope.lashed (st : Station) : StationScope.Statement (.lashed st) :=
  StationScope.of_request rfl rfl rfl .ramp1 rfl .run (by decide) rfl
theorem StationScope.backout (st : Station) : StationScope.Statement (.backout st) :=
  StationScope.of_request rfl rfl rfl .ramp1 rfl .run (by decide) rfl
theorem StationScope.sendBack (st : Station) : StationScope.Statement (.sendBack st) :=
  StationScope.of_request rfl rfl rfl .ramp1 rfl .run (by decide) rfl
theorem StationScope.unlash (st : Station) : StationScope.Statement (.unlash st) :=
  StationScope.of_request rfl rfl rfl .ramp1 rfl .run (by decide) rfl
theorem StationScope.offloaded (st : Station) : StationScope.Statement (.offloaded st) :=
  StationScope.of_request rfl rfl rfl .ramp1 rfl .run (by decide) rfl
theorem StationScope.keep (st : Station) : StationScope.Statement (.keep st) :=
  StationScope.of_request rfl rfl rfl .ramp1 rfl .run (by decide) rfl
theorem StationScope.closeLane (st : Station) : StationScope.Statement (.closeLane st) :=
  StationScope.of_request rfl rfl rfl .loading rfl .run (by decide) rfl
theorem StationScope.openLane (st : Station) : StationScope.Statement (.openLane st) :=
  StationScope.of_request rfl rfl rfl .loading rfl .run (by decide) rfl
theorem StationScope.verify (st : Station) : StationScope.Statement (.verify st) :=
  StationScope.of_request rfl rfl rfl .loading rfl .run (by decide) rfl
theorem StationScope.readLane (st : Station) : StationScope.Statement (.readLane st) :=
  StationScope.of_request rfl rfl rfl .loading rfl .run (by decide) rfl
theorem StationScope.readUnit (st : Station) : StationScope.Statement (.readUnit st) :=
  StationScope.of_request rfl rfl rfl .loading rfl .run (by decide) rfl
theorem StationScope.readAccount (st : Station) : StationScope.Statement (.readAccount st) :=
  StationScope.of_request rfl rfl rfl .loading rfl .run (by decide) rfl
theorem StationScope.readState (st : Station) : StationScope.Statement (.readState st) :=
  StationScope.of_request rfl rfl rfl .loading rfl .run (by decide) rfl
theorem StationScope.ident (st : Station) : StationScope.Statement (.ident st) :=
  StationScope.of_request rfl rfl rfl .loading rfl .run (by decide) rfl
theorem StationScope.subscribe (st : Station) : StationScope.Statement (.subscribe st) :=
  StationScope.of_request rfl rfl rfl .loading rfl .run (by decide) rfl
theorem StationScope.unknownMessageKind (st : Station) : StationScope.Statement (.unknownMessageKind st) :=
  StationScope.of_event rfl
theorem StationScope.frameReceived (st : Station) (bytes : List Byte) : StationScope.Statement (.frameReceived st bytes) :=
  StationScope.of_event rfl
theorem StationScope.interbyteTimeout (st : Station) : StationScope.Statement (.interbyteTimeout st) :=
  StationScope.of_event rfl
theorem StationScope.frameSent (st : Station) : StationScope.Statement (.frameSent st) :=
  StationScope.of_event rfl
theorem StationScope.lineBreak (st : Station) : StationScope.Statement (.lineBreak st) :=
  StationScope.of_event rfl
theorem StationScope.lineReadyChange (st : Station) (asserted : Bool) : StationScope.Statement (.lineReadyChange st asserted) :=
  StationScope.of_event rfl
theorem StationScope.quietLimit (st : Station) : StationScope.Statement (.quietLimit st) :=
  StationScope.of_event rfl
theorem StationScope.loadExpiry (lane : Nat) : StationScope.Statement (.loadExpiry lane) :=
  StationScope.of_event rfl
theorem StationScope.dischargeExpiry (lane : Nat) : StationScope.Statement (.dischargeExpiry lane) :=
  StationScope.of_event rfl
theorem StationScope.tankReportExpiry : StationScope.Statement (.tankReportExpiry) :=
  StationScope.of_event rfl
theorem StationScope.sample (code : BitVec 12) : StationScope.Statement (.sample code) :=
  StationScope.of_event rfl
theorem StationScope.clockAdvance : StationScope.Statement (.clockAdvance) :=
  StationScope.of_event rfl
theorem StationScope.moveTimerExpiry (sect : Nat) : StationScope.Statement (.moveTimerExpiry sect) :=
  StationScope.of_event rfl
theorem StationScope.sectionInputChange (sect : Nat) (levels : Inputs) : StationScope.Statement (.sectionInputChange sect levels) :=
  StationScope.of_event rfl
theorem StationScope.powerFail : StationScope.Statement (.powerFail) :=
  StationScope.of_event rfl
theorem StationScope.powerRestored : StationScope.Statement (.powerRestored) :=
  StationScope.of_event rfl
theorem StationScope.resetAsserted : StationScope.Statement (.resetAsserted) :=
  StationScope.of_event rfl
theorem StationScope.start (strap : StartStrap) (rateStraps : BitVec 3) : StationScope.Statement (.start strap rateStraps) :=
  StationScope.of_event rfl
theorem StationScope.planLockKeyChange (locked : Bool) : StationScope.Statement (.planLockKeyChange locked) :=
  StationScope.of_event rfl
theorem StationScope.timeBaseSecond : StationScope.Statement (.timeBaseSecond) :=
  StationScope.of_event rfl
theorem StationScope.breakEnd (st : Station) : StationScope.Statement (.breakEnd st) :=
  StationScope.of_event rfl
theorem StationScope.supplyLoss (cutOff : Bool) : StationScope.Statement (.supplyLoss cutOff) :=
  StationScope.of_event rfl

end Sys2Proof.Laws
end

