-- ==== Sys2Proof/Laws/Requests.lean ====
section
/-! SUPPORT. From what a handler answers to what the request's command does: one lemma for each way a
request can end, and the values that fields of a payload carry. -/

namespace Sys2Proof.Machine

/-! What a link does not enter -/

@[simp] theorem State.popMailbox_mode (s : State) (st : Station) : (s.popMailbox st).mode = s.mode := rfl
@[simp] theorem State.popMailbox_planMode (s : State) (st : Station) :
    (s.popMailbox st).planMode = s.planMode := rfl
@[simp] theorem State.popMailbox_reachOf (s : State) (st o : Station) :
    (s.popMailbox st).reachOf o = s.reachOf o := rfl
@[simp] theorem State.popMailbox_fittedRamp (s : State) (st : Station) (r : Nat) :
    (s.popMailbox st).fittedRamp r = s.fittedRamp r := rfl
@[simp] theorem State.popMailbox_fittedSection (s : State) (st : Station) (n : Nat) :
    (s.popMailbox st).fittedSection n = s.fittedSection n := rfl
@[simp] theorem State.popMailbox_displayed (s : State) (st : Station) (l : Lane) :
    (s.popMailbox st).displayed l = s.displayed l := rfl
@[simp] theorem State.popMailbox_laneEnd (s : State) (st : Station) (l : Lane) :
    (s.popMailbox st).laneEnd l = s.laneEnd l := rfl
@[simp] theorem State.popMailbox_findRecord (s : State) (st : Station) (b : Booking) :
    (s.popMailbox st).findRecord b = s.findRecord b := rfl
@[simp] theorem State.popMailbox_findEntry (s : State) (st : Station) (b : Booking) :
    (s.popMailbox st).findEntry b = s.findEntry b := rfl
@[simp] theorem State.popMailbox_waitingAt (s : State) (st : Station) (b : Booking) :
    (s.popMailbox st).waitingAt b = s.waitingAt b := rfl
@[simp] theorem State.popMailbox_reservationOn (s : State) (st : Station) (n : Nat) :
    (s.popMailbox st).reservationOn n = s.reservationOn n := rfl
@[simp] theorem State.popMailbox_oldest (s : State) (st : Station) (r : Nat) (k : MoveKind) :
    (s.popMailbox st).oldest r k = s.oldest r k := rfl
@[simp] theorem State.popMailbox_heff (s : State) (st : Station) : (s.popMailbox st).heff = s.heff := rfl
@[simp] theorem State.popMailbox_upperLimit (s : State) (st : Station) :
    (s.popMailbox st).upperLimit = s.upperLimit := rfl
@[simp] theorem State.popMailbox_lowerLimit (s : State) (st : Station) :
    (s.popMailbox st).lowerLimit = s.lowerLimit := rfl
@[simp] theorem State.popMailbox_tablesOk (s : State) (st : Station) :
    (s.popMailbox st).tablesOk = s.tablesOk := rfl

/-! Taking an offered request -/

/-- The controller works while it can take a request. -/
theorem State.Offers.working {s : State} {st : Station} {code : Nat} {p : List Byte} {f : Frame}
    (o : s.Offers st code p f) : s.working = true := by
  have h := o.next
  unfold State.nextRequest at h
  split at h
  · rename_i k; exact k.1
  · cases h

/-- A working controller is in one of the three modes. -/
theorem State.mode_of_working {s : State} (h : s.working = true) :
    s.mode = .profile ∨ s.mode = .run ∨ s.mode = .recovery := by
  have hd : s.control.down = false := by
    simp only [State.working, Bool.and_eq_true, Bool.not_eq_true'] at h
    exact h.2
  unfold State.mode
  rw [hd]
  cases s.control.work <;> simp

theorem State.planMode_of_ne_profile {s : State} (h : s.working = true) (k : s.mode ≠ .profile) :
    s.planMode = true := by
  rcases State.mode_of_working h with h | h | h <;> simp_all [State.planMode]

theorem State.ne_profile_of_planMode {s : State} (k : s.planMode = true) : s.mode ≠ .profile := by
  intro h
  simp [State.planMode, h] at k

/-- An offered request is handed to its handler and its event brought to its end. -/
theorem State.takeKind_offers {s : State} {st : Station} {code : Nat} {p : List Byte} {f : Frame}
    (o : s.Offers st code p f) (handle : Station → List Byte → State → Taken) {k : Taken}
    (h : handle st p (s.popMailbox st) = k) :
    s.takeKind st code handle =
      .next (k.state.finish (s.popMailbox st) (some (st, replyFrame f k.reply)) k.head k.tail
        k.trigger) := by
  unfold State.takeKind
  rw [State.take_eq s st _ _ f o.next (by simp [o.kind]), o.payload, h]

/-- Every request's command is the taking of its kind by its handler. -/
theorem exec_request {c : Instr} {code : Nat} {st : Station} (h : requestOf c = some (code, st)) :
    ∃ handle, ∀ s, exec c s = s.takeKind st code handle := by
  cases c <;> simp only [requestOf, Option.some.injEq, Prod.mk.injEq, reduceCtorEq] at h <;>
    obtain ⟨rfl, rfl⟩ := h <;> exact ⟨_, fun _ => rfl⟩

/-- With no such request offered the command does nothing. -/
theorem State.takeKind_idle {s : State} {st : Station} {code : Nat}
    (handle : Station → List Byte → State → Taken)
    (h : ∀ f, s.nextRequest st = some f → f.kind.toNat ≠ code) : s.takeKind st code handle = .next s :=
  State.take_idle s st _ _ fun f hf => by simpa using h f hf

/-- A quiet request places its reply and its notices. -/
theorem State.takeKind_quiet {s : State} {st : Station} {code : Nat} {p : List Byte} {f : Frame}
    (o : s.Offers st code p f) (handle : Station → List Byte → State → Taken) {x : State} {r : Reply}
    {head : List Notice} (h : handle st p (s.popMailbox st) = { state := x, reply := r, head := head })
    (ok : s.tablesOk = true) (q : QuietFrom (s.popMailbox st) x) :
    s.takeKind st code handle = .next (x.concludedWith st (replyFrame f r) head) := by
  rw [State.takeKind_offers o handle h, State.finish_quiet (s := s.popMailbox st) ok q]
  simp [State.concludedWith, State.answer]

/-- A request that leaves the blocks alone. -/
theorem OnlyAnswers.of_handle {c : Instr} {s : State} {st : Station} {code : Nat} {p : List Byte}
    {f : Frame} {r : Reply} {handle : Station → List Byte → State → Taken}
    (hc : exec c s = s.takeKind st code handle) (o : s.Offers st code p f) (ok : s.tablesOk = true)
    (h : handle st p (s.popMailbox st) = { state := s.popMailbox st, reply := r }) :
    OnlyAnswers c s st f r := by
  unfold OnlyAnswers
  rw [hc, State.takeKind_quiet o handle h ok ⟨rfl, rfl, rfl, rfl, rfl, rfl, rfl⟩]
  rfl

/-- A request, its notices and its pass: where the handler leaves `b`, links and image apart. -/
theorem AnswersWith.of_handle {c : Instr} {s b : State} {st : Station} {code : Nat} {p : List Byte}
    {f : Frame} {handle : Station → List Byte → State → Taken} {k : Taken}
    (hc : exec c s = s.takeKind st code handle) (o : s.Offers st code p f)
    (h : handle st p (s.popMailbox st) = k) (hb : k.state = b.relinked k.state.links k.state.store)
    (hl : k.state.links = (s.popMailbox st).links) (hs : b.stations = s.stations) :
    AnswersWith c s st f k.reply k.head k.tail b k.trigger := by
  unfold AnswersWith
  rw [hc, State.takeKind_offers o handle h]
  congr 1
  refine State.finish_eventEnd _ _ b s _ _ _ _ _ hb rfl ?_ ?_
  · simp [State.answer, State.reply, State.setLink, hl]
  · rw [hs]; rfl

/-- What leads on depends on links alone. -/
theorem State.LeadsTo.of_links {a b t : State} (h : a.LeadsTo t) (e : a.links = b.links) : b.LeadsTo t :=
  ⟨fun o => e ▸ h.links o, h.image⟩

/-- A request, up to the notices ahead of the lane reports. -/
theorem Answers.of_handle {c : Instr} {s : State} {st : Station} {code : Nat} {p : List Byte}
    {f : Frame} {handle : Station → List Byte → State → Taken} {k : Taken} {P : State → Prop}
    (hc : exec c s = s.takeKind st code handle) (o : s.Offers st code p f)
    (h : handle st p (s.popMailbox st) = k) (hl : k.state.links = (s.popMailbox st).links)
    (hs : k.state.stations = s.stations)
    (hP : P (k.state.finish (s.popMailbox st) (some (st, replyFrame f k.reply)) k.head k.tail k.trigger)) :
    Answers c s st f k.reply k.head P := by
  refine ⟨_, hc.trans (State.takeKind_offers o handle h), ?_, hP⟩
  refine (State.finish_leadsTo k.state (s.popMailbox st) _ k.head k.tail k.trigger).of_links ?_
  exact State.sendAll_links_congr (by simp [State.answer, State.reply, State.setLink, hl])
    (by simp [State.answer, State.reply, State.setLink, hs]) _

/-- An event that is no request and leaves the links to its notices. -/
theorem HappensWith.of_event {c : Instr} {s b x : State} {head tail : List Notice}
    (hc : exec c s = x.event s head tail) (hb : x = b.relinked s.links x.store)
    (hs : b.stations = s.stations) : HappensWith c s head tail b := by
  unfold HappensWith
  rw [hc]
  unfold State.event
  congr 1
  exact State.finish_eventEnd x s b s s none head tail false (by rw [hb]; rfl) rfl (by rw [hb]; rfl)
    hs.symm

/-- An event that is no request and reaches the links itself. -/
theorem EndsFrom.of_event {c : Instr} {s b : State} {head tail : List Notice}
    (hc : exec c s = b.event s head tail) : EndsFrom c s b head tail := by
  unfold EndsFrom
  rw [hc]
  exact congrArg _ (State.finish_eventEnd b s b s b none head tail false rfl rfl rfl rfl)

/-! Payload values -/

@[simp] theorem natOf_nil : natOf [] = 0 := rfl

theorem natOf_u8 {n : Nat} (h : n < 256) : natOf (u8 n) = n := by
  simp [natOf, u8, Nat.mod_eq_of_lt h]

theorem natOf_u16 {n : Nat} (h : n < 65536) : natOf (u16 n) = n := by
  simp only [natOf, u16, List.foldl_cons, List.foldl_nil, BitVec.toNat_ofNat]
  omega

theorem natOf_u32 {n : Nat} (h : n < 4294967296) : natOf (u32 n) = n := by
  simp only [natOf, u32, List.foldl_cons, List.foldl_nil, BitVec.toNat_ofNat]
  omega

@[simp] theorem u8_length (n : Nat) : (u8 n).length = 1 := rfl
@[simp] theorem u16_length (n : Nat) : (u16 n).length = 2 := rfl
@[simp] theorem u32_length (n : Nat) : (u32 n).length = 4 := rfl
@[simp] theorem i16_length (z : Int) : (i16 z).length = 2 := rfl
@[simp] theorem i32_length (z : Int) : (i32 z).length = 4 := rfl

theorem intOf_i16 {z : Int} (h : -32768 ≤ z) (k : z < 32768) : intOf (i16 z) = z := by
  have e : natOf (i16 z) = (z % 65536).toNat := natOf_u16 (by omega)
  unfold intOf
  rw [e, i16_length]
  split <;> omega

theorem intOf_i32 {z : Int} (h : -2147483648 ≤ z) (k : z < 2147483648) : intOf (i32 z) = z := by
  have e : natOf (i32 z) = (z % 4294967296).toNat := natOf_u32 (by omega)
  unfold intOf
  rw [e, i32_length]
  split <;> omega

/-- A field at the front of a payload. -/
theorem field_append (a b : List Byte) {n : Nat} (h : a.length = n) : field (a ++ b) 0 n = a := by
  simp [field, ← h]

/-- A field behind the front of a payload. -/
theorem field_skip (a b : List Byte) {m : Nat} (k n : Nat) (h : a.length = m) :
    field (a ++ b) (m + k) n = field b k n := by
  have e : List.drop (a.length + k) a = [] := List.drop_of_length_le (by omega)
  simp [field, ← h, List.drop_append, e]

/-- A field that is the whole payload. -/
theorem field_whole (a : List Byte) {n : Nat} (h : a.length = n) : field a 0 n = a := by
  simp [field, ← h]

/-! The first field that fails -/

/-- The first condition is broken. -/
theorem firstBroken_here {b : Prop} (rest : List (Nat × Prop)) (k : Nat) (h : b) :
    FirstBroken ((k, b) :: rest) k := .inl ⟨h, rfl⟩

/-- The first condition holds, and behind it the first broken one is `k`. -/
theorem firstBroken_later {n k : Nat} {b : Prop} {rest : List (Nat × Prop)} (h : ¬ b)
    (l : FirstBroken rest k) : FirstBroken ((n, b) :: rest) k := .inr ⟨h, l⟩

/-- Conditions that are broken exactly where the checks fail name the check that fails first. -/
theorem firstFailing_of_firstBroken {checks : List (Nat × Bool)} {broken : List (Nat × Prop)} {k : Nat}
    (same : List.Forall₂ (fun c b => c.1 = b.1 ∧ (c.2 = false ↔ b.2)) checks broken)
    (h : FirstBroken broken k) : firstFailing checks = some k := by
  induction same with
  | nil => exact h.elim
  | @cons c b _ _ hd _ ih =>
    obtain ⟨hb, e⟩ | ⟨hb, l⟩ := h
    · simp [firstFailing, List.find?, hd.2.mpr hb, hd.1, e]
    · have t : c.2 = true := by simpa using mt hd.2.mp hb
      simpa [firstFailing, List.find?, t] using ih l

end Sys2Proof.Machine
end

