-- ==== Sys2Proof/Tests/Slice0.lean ====
section
/-! SUPPORT. Tests of the model's own work, and for every statement with hypotheses a witness: a concrete
state and operands that meet all of them, clause by clause, at the ends of the ranges. -/

namespace Sys2Proof.Tests

open Sys2Proof Sys2Proof.Machine

/-! A small ship -/

/-- A booking of two characters. -/
def bk (a b : Nat) : Booking := [BitVec.ofNat 8 a, BitVec.ofNat 8 b]

/-- The bookings A1 to I1. -/
def nameOf (k : Nat) : Booking := bk (64 + k) 49

def fields : UnitFields where
  kind := .trailer
  length := 50
  height := some 300
  mass := 100
  dg := none
  reefer := false
  port := 3

def body : UnitBody where
  kind := .trailer
  length := 50
  height := 300
  mass := 100
  dg := none
  reefer := false
  port := 3
  unannounced := false

def unitOf (k : Nat) (st : UnitState) : UnitRecord :=
  { booking := nameOf k, fields := fields, unannounced := false, state := st }

def entryOf (k : Nat) (st : EntryState) : Entry :=
  { booking := nameOf k, unit := body, offset := 0, state := st }

def profileOf (row : Nat) (arm : Int) (relation : Relation) : LaneProfile where
  deck := 1
  row := row
  length := 200
  closedEnd := 1200
  direction := .aft
  arm := arm
  baseClearance := 400
  massCap := 1000
  sockets := 2
  dgPermitted := true
  kinds := { trailer := true, rigid := true, car := true, cassette := true }
  relation := relation

/-- A lane that would reach beyond the aft end of the ship. -/
def astern : LaneProfile := { profileOf 1 0 .none with direction := .aft, closedEnd := 0 }

def laneOf (row : Nat) (arm : Int) (relation : Relation) (entries : List Entry) (check : Option CheckRecord)
    (mass : Nat) : Lane :=
  { profile := profileOf row arm relation, entries := entries, check := check, closed := false, level := 4,
    mass := mass, revision := 7, clearance := 400 }

def checkOf (k : Nat) (delta : Int) (content : CheckContent) : CheckRecord :=
  { booking := nameOf k, ramp := 1, delta := delta, zone := some 1, offset := 0, content := content }

def moveOf (k lane : Nat) (kind : MoveKind) (delta : Int) (seq : Nat) : Reservation :=
  { kind := kind, lane := lane, ramp := 1, booking := nameOf k, mass := 100, delta := delta, zone := some 1,
    offset := 0, seq := seq, seconds := 0 }

def openings : Clearances :=
  { aboveRaised := 200, aboveMid := 250, aboveLowered := 400, beneathRaised := 500, beneathMid := 400,
    beneathLowered := 250 }

def sectAt (state : SectState) (position target : Option Position) (cause : Option FaultCause)
    (timer : Nat) : Sect :=
  { clearances := openings, position := position, state := state, origin := none, target := target,
    faultHeld := false, cause := cause, timer := timer }

def lowered : Inputs := { raised := false, mid := false, lowered := true }
def raisedOnly : Inputs := { raised := true, mid := false, lowered := false }
def noInput : Inputs := { raised := false, mid := false, lowered := false }
def bothInputs : Inputs := { raised := true, mid := false, lowered := true }

/-- A sealed plan in RUN: A1 STOWED in lane 1, B1 RESERVED in lane 2, C1 LEAVING in lane 3, a LOAD check
record for D1 on lane 4, a DISCHARGE check record for E1 on lane 5, lane 6 on and lane 7 beneath section 1,
lane 48 empty; section 1 lowered, 2 moving, 3 waiting for lane 2, 4 in FAULT, 6 at rest; F1 waits, G1 is
ANNOUNCED, H1 EXCLUDED. -/
def run : State :=
  State.commit
    { State.blank with
      isSealed := true
      register :=
        [unitOf 2 .reserved, unitOf 4 .check, unitOf 6 .waiting, unitOf 7 .announced, unitOf 8 .excluded]
      lanes :=
        [(1, laneOf 1 100 .none [entryOf 1 .stowed] none 100),
          (2, laneOf 2 100 (.beneath 3) [entryOf 2 .reserved] none 0),
          (3, laneOf 3 100 .none [entryOf 3 .leaving] none 100),
          (4, laneOf 4 (-100) .none [] (some (checkOf 4 (-10000) (.load body))) 0),
          (5, laneOf 5 (-100) .none [entryOf 5 .stowed] (some (checkOf 5 10000 .discharge)) 100),
          (6, laneOf 6 0 (.on 1) [] none 0), (7, laneOf 7 0 (.beneath 1) [] none 0),
          (48, laneOf 8 0 .none [] none 0)]
      zones := [(1, { deck := 1, aft := 0, fore := 2400, cap := 5000, confirmed := 300, pendingLoad := 200 })]
      ramps :=
        [(1, { reach := [1, 2, 3, 4, 5, 6, 7, 48], mask := 7, suspended := false, count := 2 }),
          (2, { reach := [1, 48], mask := 7, suspended := true, count := 0 }),
          (4, { reach := [48], mask := 0, suspended := false, count := 0 })]
      sections :=
        [(1, sectAt .atPosition (some .lowered) none none 0),
          (2, { sectAt .moving none (some .raised) none 0 with origin := some .lowered }),
          (3, sectAt .movePending (some .raised) (some .lowered) none 0),
          (4, sectAt .fault none none (some .timeout) 0),
          (6, sectAt .atPosition (some .lowered) none none 0)]
      inputs := [(1, lowered), (3, raisedOnly), (6, lowered)]
      poolInUse := 5
      account :=
        { tc := 10000, pPlus := 20000, pMinus := -20000, kp := 1000000, ks := 1000000, h := 5000,
          revision := 3 }
      seqNext := 3
      movements := [moveOf 2 2 .load 10000 1, moveOf 3 3 .discharge (-10000) 2]
      waiting := [{ booking := nameOf 6, ramp := 1, retries := 2, reasons := [(.heel, 8)] }]
      control := { State.blank.control with work := .run } }

/-- The same ship with nothing aboard. -/
def calm : State :=
  { State.blank with
    isSealed := true
    lanes := [(1, laneOf 1 100 .none [] none 0), (48, laneOf 8 0 .none [] none 0)]
    ramps := [(1, { reach := [1, 48], mask := 7, suspended := false, count := 0 })]
    control := { State.blank.control with work := .run } }

/-- PROFILE with one record of each table, ready to be sealed. -/
def loaded : State :=
  { State.blank with
    lanes := [(1, laneOf 1 100 (.on 1) [] none 0)]
    zones := [(1, { deck := 1, aft := 0, fore := 2400, cap := 5000, confirmed := 0, pendingLoad := 0 })]
    ramps := [(1, { reach := [1], mask := 7, suspended := false, count := 0 })]
    sections := [(1, newSection openings)]
    inputs := [(1, lowered)] }

/-- POWER_DOWN, held from RUN. -/
def asleep : State := { run with control := { run.control with down := true, powerFailInput := true } }

/-- RECOVERY, with the check records alone. -/
def resumed : State :=
  { run with movements := [], waiting := [], control := { run.control with work := .recovery } }

/-- A request put at the front of a link whose queue is empty. -/
def asked (code : Nat) (p : List Byte) : Frame := { kind := BitVec.ofNat 8 code, tag := 7, payload := p }

def offered (s : State) (st : Station) (code : Nat) (p : List Byte) : State :=
  s.setLink st { s.links.get st with mailbox := [asked code p], queue := [] }

theorem offered_offers (s : State) (st : Station) (code : Nat) (p : List Byte) (h : s.working = true)
    (k : code < 256) : (offered s st code p).Offers st code p (asked code p) where
  next := by
    have w : (offered s st code p).working = true := h
    unfold State.nextRequest
    rw [if_pos ⟨w, by cases st <;> (show 0 < 16; decide)⟩]
    cases st <;> rfl
  kind := by simpa [asked] using Nat.mod_eq_of_lt k
  payload := rfl

/-- The controller works, so the state that offers the request meets `Offers` (`Meets.offers`), and that
state has the property `Q`. -/
abbrev Meets (s : State) (st : Station) (code : Nat) (p : List Byte) (Q : State → Prop) : Prop :=
  s.working = true ∧ code < 256 ∧ Q (offered s st code p)

theorem Meets.offers {s : State} {st : Station} {code : Nat} {p : List Byte} {Q : State → Prop}
    (m : Meets s st code p Q) :
    (offered s st code p).Offers st code p (asked code p) ∧ Q (offered s st code p) :=
  ⟨offered_offers s st code p m.1 m.2.1, m.2.2⟩

/-- The state with one command waiting. -/
def facing (s : State) (c : Instr) : State := { s with pending := [c] }

/-- The state a command leaves; the state itself where it stops. -/
def after (c : Instr) (s : State) : State :=
  match exec c s with
  | .next t => t
  | _ => s

/-- The reply to a request: its kind and payload, as it stands first in the link's queue. -/
def replyTo (s : State) (st : Station) (code : Nat) (p : List Byte) (c : Instr) : Option (Byte × List Byte) :=
  ((after c (offered s st code p)).links.get st).queue.head?.map fun f => (f.kind, f.payload)

/-! WellFormed refuses what the module has no terminals for -/

theorem test_wf_refuses_lane_zero : (Instr.loadExpiry 0).wf = false := by decide
theorem test_wf_refuses_lane_above : (Instr.dischargeExpiry 49).wf = false := by decide
theorem test_wf_refuses_section_zero : (Instr.moveTimerExpiry 0).wf = false := by decide
theorem test_wf_refuses_section_above : (Instr.sectionInputChange 7 lowered).wf = false := by decide
theorem test_wf_takes_the_ends :
    (Instr.loadExpiry 48).wf = true ∧ (Instr.moveTimerExpiry 6).wf = true := by decide

/-! The fixtures are states the invariants admit -/

theorem test_run_is_sound : run.sound = true := by decide
theorem test_calm_is_sealed : calm.modeOk = true ∧ calm.tablesOk = true := by decide

/-! Witnesses: the step and the checks that open every request -/

theorem witness_StepTakesTheFrontCommand :
    (facing run .timeBaseSecond).pending = [.timeBaseSecond] ∧ run.pending = [] := by decide

theorem witness_WellFormedCommandsAnswer :
    (Instr.loadExpiry 1).wf = true ∧ (Instr.sectionInputChange 6 lowered).wf = true ∧
      sectionNumberOk 0 = false ∧ sectionNumberOk 7 = false := by decide

theorem witness_AuthorityIsCheckedFirst :
    requestOf (.closeLane .yard) = some (0x40, .yard) ∧
      Meets run .yard 0x40 (u8 1) (fun s => s.tablesOk = true ∧ authorised 0x40 .yard = false) ∧
      Meets State.reset .ramp4 0x15 [] (fun s => s.tablesOk = true ∧ authorised 0x15 .ramp4 = false) ∧
      Meets run .yard 0x13 (u8 6 ++ u8 1) (fun s => s.tablesOk = true ∧ authorised 0x13 .yard = false) ∧
      requestOf (.verify .ramp4) = some (0x42, .ramp4) ∧
      Meets run .ramp4 0x42 (u8 1) (fun s => s.tablesOk = true ∧ s.mode ≠ .profile ∧
        laneNumberOk 1 = true ∧ isRampStation .ramp4 = true ∧ 1 ∉ s.reachOf .ramp4) ∧
      Meets run .ramp3 0x40 (u8 48) (fun s => s.tablesOk = true ∧ s.mode ≠ .profile ∧
        laneNumberOk 48 = true ∧ isRampStation .ramp3 = true ∧ 48 ∉ s.reachOf .ramp3) := by
  decide

theorem witness_ModeIsCheckedNext :
    requestOf (.arrive .ramp1) = some (0x30, .ramp1) ∧
      Meets resumed .ramp1 0x30 [] (fun s => s.tablesOk = true ∧ authorised 0x30 .ramp1 = true ∧
        takenIn 0x30 s.mode = false) ∧
      Meets run .loading 0x01 [] (fun s => s.tablesOk = true ∧ authorised 0x01 .loading = true ∧
        takenIn 0x01 s.mode = false) ∧
      Meets State.reset .yard 0x50 [] (fun s => s.tablesOk = true ∧ authorised 0x50 .yard = true ∧
        takenIn 0x50 s.mode = false) := by
  decide

theorem witness_FormIsChecked :
    (offered run .yard 0x16 []).nextRequest .yard = some (asked 0x16 []) ∧
      (offered run .yard 0x16 []).tablesOk = true ∧
      isRequestKind (asked 0x16 []).kind.toNat = false ∧
      Meets run .loading 0x40 [] (fun s => s.tablesOk = true ∧ authorised 0x40 .loading = true ∧
        takenIn 0x40 s.mode = true ∧ lengthFits 0x40 [] = false) ∧
      Meets run .loading 0x13 (u8 1) (fun s => s.tablesOk = true ∧ takenIn 0x13 s.mode = true ∧
        lengthFits 0x13 (u8 1) = false) ∧
      Meets run .loading 0x07 [0] (fun s => takenIn 0x07 s.mode = true ∧ lengthFits 0x07 [0] = false) ∧
      Meets State.reset .loading 0x06 [0] (fun s => takenIn 0x06 s.mode = true ∧
        lengthFits 0x06 [0] = false) ∧
      Meets run .loading 0x0B [0] (fun s => takenIn 0x0B s.mode = true ∧ lengthFits 0x0B [0] = false) ∧
      Meets resumed .loading 0x0F [0] (fun s => takenIn 0x0F s.mode = true ∧ lengthFits 0x0F [0] = false) ∧
      Meets run .ramp1 0x30 (List.replicate 11 0) (fun s => s.tablesOk = true ∧
        authorised 0x30 .ramp1 = true ∧ takenIn 0x30 s.mode = true ∧
        lengthFits 0x30 (List.replicate 11 0) = false ∧
        ((rampOf .ramp1).bind s.fittedRamp).map (·.suspended) = some false ∧ s.clock.reached = false) ∧
      Meets run .ramp1 0x34 (List.replicate 9 0) (fun s => s.tablesOk = true ∧
        takenIn 0x34 s.mode = true ∧ lengthFits 0x34 (List.replicate 9 0) = false ∧
        ((rampOf .ramp1).bind s.fittedRamp).map (·.suspended) = some false ∧ s.monitor.stop = false) := by
  decide

theorem witness_UndefinedNumbersAreRefused :
    Meets run .loading 0x41 (u8 47) (fun s => s.tablesOk = true ∧ s.mode ≠ .profile ∧
        laneNumberOk 47 = true ∧ s.lanes.get 47 = none) ∧
      Meets { run with lanes := [] } .ramp1 0x42 (u8 48) (fun s => s.tablesOk = true ∧ s.mode ≠ .profile ∧
        laneNumberOk 48 = true ∧ isRampStation .ramp1 = true ∧ 48 ∈ s.reachOf .ramp1 ∧
        s.lanes.get 48 = none) ∧
      Meets { run with lanes := [] } .yard 0x22 (u8 1 ++ u8 7) (fun s => s.tablesOk = true ∧
        s.mode ≠ .profile ∧ laneNumberOk 1 = true ∧ s.lanes.get 1 = none) ∧
      Meets { run with lanes := [] } .ramp3 0x50 (u8 48 ++ u8 6) (fun s => s.tablesOk = true ∧
        s.mode ≠ .profile ∧ laneNumberOk 48 = true ∧ s.lanes.get 48 = none) ∧
      Meets run .yard 0x23 (u8 3 ++ u8 7) (fun s => s.tablesOk = true ∧ s.mode ≠ .profile ∧
        rampNumberOk 3 = true ∧ s.fittedRamp 3 = none) ∧
      Meets calm .loading 0x12 (u8 4) (fun s => s.tablesOk = true ∧ s.mode ≠ .profile ∧
        rampNumberOk 4 = true ∧ s.fittedRamp 4 = none) ∧
      Meets calm .loading 0x15 (u8 6) (fun s => s.tablesOk = true ∧ s.mode ≠ .profile ∧
        sectionNumberOk 6 = true ∧ s.fittedSection 6 = none) ∧
      Meets calm .loading 0x13 (u8 1 ++ u8 (positionCode (some .raised))) (fun s => s.tablesOk = true ∧
        s.mode ≠ .profile ∧ sectionNumberOk 1 = true ∧ s.fittedSection 1 = none) ∧
      Meets run .ramp3 0x34 [] (fun s => s.tablesOk = true ∧ s.mode = .run ∧
        rampOf .ramp3 = some 3 ∧ s.fittedRamp 3 = none) := by
  decide

theorem witness_UndefinedNumbersAreRefused_fields :
    Meets run .loading 0x42 (u8 0) (fun s => s.tablesOk = true ∧ s.mode ≠ .profile ∧
        Station.loading ≠ .yard ∧ laneNumberOk 0 = false) ∧
      Meets run .ramp4 0x40 (u8 49) (fun s => s.mode ≠ .profile ∧ 49 < 256 ∧ laneNumberOk 49 = false) ∧
      Meets run .yard 0x22 (u8 49 ++ u8 0) (fun s => s.tablesOk = true ∧ s.mode ≠ .profile) ∧
      Meets run .yard 0x22 (u8 48 ++ u8 8) (fun _ => laneNumberOk 48 = true ∧ 7 < 8) ∧
      Meets run .ramp1 0x50 (u8 0 ++ u8 255) (fun s => s.tablesOk = true ∧ s.mode ≠ .profile) ∧
      Meets run .ramp1 0x50 (u8 1 ++ u8 7) (fun _ => laneNumberOk 1 = true ∧ 6 < 7) ∧
      Meets run .yard 0x23 (u8 5 ++ u8 8) (fun s => s.tablesOk = true ∧ s.mode ≠ .profile ∧
        rampNumberOk 5 = false) ∧
      Meets run .yard 0x23 (u8 4 ++ u8 8) (fun _ => rampNumberOk 4 = true ∧ 7 < 8) ∧
      Meets run .loading 0x11 (u8 5) (fun s => s.tablesOk = true ∧ s.mode ≠ .profile) ∧
      Meets run .loading 0x12 (u8 0) (fun _ => rampNumberOk 0 = false) := by
  decide

/-- R152: without a number in its rule, an operand is named by its place in the payload: the mask is field
2. -/
theorem test_mask_out_of_range :
    replyTo run .yard 0x23 (u8 1 ++ u8 8) (.setMask .yard) = some (0x81, [0x23, 3, 2, 0]) := by decide

theorem witness_StandstillTakesNothing :
    State.reset.nextRequest .loading = none ∧
      (offered run .loading 0x40 []).nextRequest .loading = some (asked 0x40 []) ∧
      (asked 0x40 []).kind.toNat ≠ 0x41 ∧ asleep.working = false ∧
      (State.reset.links.get .loading).mailbox = [] ∧
      ((run.setLink .yard { run.links.get .yard with
        queue := List.replicate 16 coldModeFrame }).links.get .yard).queue.length = 16 := by
  decide

/-- A slot that holds a MODE notice, in front of one that holds a CUTOFF_REACHED. -/
def heldSlots : List Slot :=
  [{ kind := .mode, content := [1, 1], merge := 2 }, { kind := .cutoffReached, content := [], merge := 1 }]

/-- The running plan with those slots held on the links of the loading computer and of ramp 1. -/
def held : State :=
  (run.setLink .loading { run.links.get .loading with slots := heldSlots }).setLink .ramp1
    { run.links.get .ramp1 with slots := heldSlots }

theorem witness_EveryRequestIsAnswered :
    requestOf (.linkReset .loading) = some (0x10, .loading) ∧
      Meets run .loading 0x10 (u8 6) (fun _ => stationOf (natOf (field (u8 6) 0 1)) = some .ramp4 ∧
        Station.ramp4 ≠ .ramp3) ∧
      Meets run .loading 0x10 [] (fun _ => stationOf (natOf (field [] 0 1)) = none) ∧
      requestOf (.ident .ramp4) = some (0x54, .ramp4) ∧ Meets State.reset .ramp4 0x54 [] (fun _ => True) ∧
      Meets held .loading 0x40 (u8 1) (fun s => (s.links.get .loading).slots = heldSlots ∧
        (s.links.get .ramp1).slots = heldSlots) := by
  decide

/-! Witnesses: invariants -/

/-- A second passes on the running plan, in which every invariant holds. -/
theorem witness_StoresStayCanonical : (facing run .timeBaseSecond).storesOk = true ∧
    ∃ t, step (facing run .timeBaseSecond) = .next t := ⟨by decide, _, rfl⟩

theorem witness_LinksStayWithinBounds : (facing run .timeBaseSecond).linksOk = true ∧
    ∃ t, step (facing run .timeBaseSecond) = .next t := ⟨by decide, _, rfl⟩

theorem witness_ImageFollowsTheState : (facing run .timeBaseSecond).imageOk = true ∧
    ∃ t, step (facing run .timeBaseSecond) = .next t := ⟨by decide, _, rfl⟩

theorem witness_SectionsStayCoherent : (facing run .timeBaseSecond).storesOk = true ∧
    (facing run .timeBaseSecond).modeOk = true ∧ (facing run .timeBaseSecond).sectionsOk = true ∧
    ∃ t, step (facing run .timeBaseSecond) = .next t :=
  ⟨by decide, by decide, by decide +kernel, _, rfl⟩

theorem witness_MonitorAndCountersStayInRange : (facing run .timeBaseSecond).monitor.ok = true ∧
    (facing run .timeBaseSecond).boundsOk = true ∧
    ∃ t, step (facing run .timeBaseSecond) = .next t := ⟨by decide, by decide +kernel, _, rfl⟩

theorem witness_ModeAgreesWithTheSeal : (facing run .timeBaseSecond).modeOk = true ∧
    ∃ t, step (facing run .timeBaseSecond) = .next t := ⟨by decide, _, rfl⟩

theorem witness_WaitingListMatchesTheRegister : (facing run .timeBaseSecond).sound = true ∧
    ∃ t, step (facing run .timeBaseSecond) = .next t := ⟨by decide, _, rfl⟩

/-- An expiry on the running plan is such a step too: lane 2's reservation lapses. -/
theorem witness_PlanMatchesTheAccount : (facing run (.loadExpiry 2)).sound = true ∧
    ∃ t, step (facing run (.loadExpiry 2)) = .next t := ⟨by decide, _, rfl⟩

/-- R26: the plan in which section 3, over a reservation, has started to move is none that `planOk` admits. -/
theorem test_no_movement_beneath_a_moving_section :
    run.planOk = true ∧
      ({ run with sections := run.sections.modify 3 fun c => { c with state := .moving } } :
        State).planOk = false := by decide

theorem witness_ListsStayPacked : (facing run (.dischargeExpiry 3)).sound = true ∧
    ∃ t, step (facing run (.dischargeExpiry 3)) = .next t := ⟨by decide, _, rfl⟩

theorem witness_BookingsStayUnique : (facing run (.loadExpiry 2)).sound = true ∧
    ∃ t, step (facing run (.loadExpiry 2)) = .next t := ⟨by decide, _, rfl⟩

theorem witness_WarmStartKeepsTheEnvelopes :
    run.sound = true ∧ run.control.supplied = true ∧ run.isSealed = true ∧
      (run.lanes.get 1).isSome = true ∧ run.reservationOn 1 = none ∧
      run.reservationOn 2 = some (moveOf 2 2 .load 10000 1) ∧ (run.lanes.get 2).isSome = true ∧
      run.reservationOn 3 = some (moveOf 3 3 .discharge (-10000) 2) ∧ (run.lanes.get 3).isSome = true ∧
      (run.lanes.get 2).bind (·.entries.getLast?) = some (entryOf 2 .reserved) ∧
      (∀ p ∈ run.sections, run.sections.get p.1 = some p.2) ∧
      (State.commit loaded).sound = true ∧ (State.commit loaded).control.supplied = true ∧
      (State.commit loaded).isSealed = false ∧ ((State.commit loaded).sections.get 1).isSome = true := by
  decide

/-! Witnesses: encodings -/

theorem witness_FramesSurviveTheLine :
    (asked 0x40 (List.replicate 100 0xC5)).payload.length ≤ 100 ∧ (asked 0x54 []).payload.length ≤ 100 ∧
      (∀ b ∈ ([0, 0xFF] : List Byte), b ≠ startByte) ∧ Station.yard ≠ .loading := by
  decide

theorem witness_RecordsSurviveTheirEncoding :
    (profileOf 1 (-1600) .none).rangesOk = true ∧ (profileOf 12 1600 (.beneath 6)).rangesOk = true ∧
      (profileOf 1 0 (.on 1)).fits = true ∧
      astern.rangesOk = true ∧ astern.fits = false ∧
      (∀ p ∈ loaded.zones, p.2.inRange = true) ∧ openings.inRange = true ∧ fields.inRange = true ∧
      ({ fields with length := 200, height := none, mass := 700, dg := some .d, port := 15 } :
        UnitFields).inRange = true ∧
      bookingOk (nameOf 1) = true ∧ bookingOk (List.replicate 10 45) = true := by
  decide

/-- A monitor in ACTIVE whose next sample is compared, with three divergences counted. -/
def watching : Monitor where
  kh := 65535
  offset := 200
  tolerance := 5
  tank := some { ta := 0, age := 30, stale := false }
  history := [600, 600, 600]
  rail := 3
  qualified := 3
  divergence := 3
  stop := false

/-! Witnesses: the ship profile -/

theorem witness_DefinedLanesAreStored :
    Meets State.reset .loading 0x01 (u8 1 ++ encLaneProfile (profileOf 1 0 .none)) (fun s =>
        s.tablesOk = true ∧ s.modeOk = true ∧ s.mode = .profile ∧ laneNumberOk 1 = true ∧
        (profileOf 1 0 .none).rangesOk = true ∧ (profileOf 1 0 .none).fits = true) ∧
      Meets loaded .loading 0x01 (u8 48 ++ encLaneProfile astern)
        (fun s => s.tablesOk = true ∧ s.modeOk = true ∧ s.mode = .profile ∧ laneNumberOk 48 = true ∧
          astern.rangesOk = true ∧ astern.fits = false) := by
  decide

/-- A payload that breaks field 1, and one that breaks the check against the ship alone. -/
theorem witness_DefinedLanesAreStored_refusals :
    let deck5 := u8 1 ++ encLaneProfile { profileOf 13 0 .none with deck := 5 }
    let beyond := u8 48 ++ encLaneProfile astern
    Meets State.reset .loading 0x01 deck5 (fun s => s.tablesOk = true ∧ s.mode = .profile ∧
        deck5.length = 19 ∧ laneNumberOk (natOf (field deck5 0 1)) = true) ∧
      FirstBroken (laneBreaches deck5) 1 ∧
      Meets loaded .loading 0x01 beyond (fun s => s.tablesOk = true ∧ s.mode = .profile ∧
        beyond.length = 19 ∧ laneNumberOk (natOf (field beyond 0 1)) = true) ∧
      FirstBroken (laneBreaches beyond) 3 := by
  refine ⟨by decide, ?_, by decide, ?_⟩ <;>
    repeat' first
      | exact firstBroken_here _ _ (by decide)
      | refine firstBroken_later (by decide) ?_

/-- R4: the reefer sockets are field 9, the section relation field 12. -/
theorem test_lane_field_refusals :
    replyTo State.reset .loading 0x01 (u8 1 ++ encLaneProfile { profileOf 1 0 (.on 7) with sockets := 9 })
        (.defLane .loading) = some (0x81, [0x01, 3, 9, 0]) ∧
      replyTo State.reset .loading 0x01 (u8 1 ++ encLaneProfile (profileOf 1 0 (.on 7))) (.defLane .loading) =
        some (0x81, [0x01, 3, 12, 0]) := by decide

theorem witness_DefinitionsAreStored_refusals :
    let z : Zone := { deck := 4, aft := 2399, fore := 2399, cap := 65000, confirmed := 0, pendingLoad := 0 }
    let flat := u8 16 ++ encZone z
    let steep := u8 6 ++ encClearances { openings with beneathLowered := 401 }
    let wide := u8 10 ++ u16 301
    Meets loaded .loading 0x02 flat (fun s => s.tablesOk = true ∧ s.mode = .profile ∧ flat.length = 8 ∧
        natOf (field flat 0 1) = 16) ∧
      FirstBroken (zoneBreaches flat) 3 ∧
      Meets loaded .loading 0x04 steep (fun s => s.tablesOk = true ∧ s.mode = .profile ∧ steep.length = 13 ∧
        sectionNumberOk (natOf (field steep 0 1)) = true) ∧
      FirstBroken (sectionBreaches steep) 6 ∧
      Meets loaded .loading 0x05 wide (fun s => s.tablesOk = true ∧ s.mode = .profile ∧ wide.length = 3) ∧
      FirstBroken (shipBreaches wide) 2 := by
  refine ⟨by decide, ?_, by decide, ?_, by decide, ?_⟩ <;>
    repeat' first
      | exact firstBroken_here _ _ (by decide)
      | refine firstBroken_later (by decide) ?_

theorem witness_DefinitionsAreStored_reach :
    Meets loaded .loading 0x03 (u8 4 ++ encNums []) (fun s => s.tablesOk = true ∧ s.mode = .profile ∧
        u8 4 ++ encNums [] = u8 (natOf (field (u8 4 ++ encNums []) 0 1)) ++ encNums [] ∧
        rampNumberOk 4 = true) ∧
      Meets loaded .loading 0x03 (u8 1 ++ encNums (List.range' 1 25)) (fun _ =>
        24 < (List.range' 1 25).length ∧ (List.range' 1 25).length < 256 ∧
        natOf (field (u8 1 ++ encNums (List.range' 1 25)) 0 1) = 1) ∧
      Meets loaded .loading 0x03 (u8 1 ++ encNums [48, 49]) (fun _ => laneNumberOk 48 = true ∧
        laneNumberOk 49 = false ∧ [48].Nodup ∧ ∀ e ∈ [48, 49], e < 256) ∧
      Meets loaded .loading 0x03 (u8 1 ++ encNums [48, 1, 48]) (fun _ => laneNumberOk 1 = true ∧
        [48, 1].Nodup ∧ 48 ∈ [48, 1]) := by decide

/-- R7: an element out of range and a repeat are named by their positions. -/
theorem test_reach_refusals :
    replyTo loaded .loading 0x03 (u8 1 ++ encNums [48, 49]) (.defRamp .loading) =
        some (0x81, [0x03, 3, 1, 2]) ∧
      replyTo loaded .loading 0x03 (u8 1 ++ encNums [48, 1, 48]) (.defRamp .loading) =
        some (0x81, [0x03, 3, 1, 3]) := by decide

theorem witness_DefinitionsAreStored :
    let z : Zone := { deck := 4, aft := 0, fore := 2400, cap := 65000, confirmed := 0, pendingLoad := 0 }
    Meets State.reset .loading 0x02 (u8 16 ++ encZone z) (fun s => s.sound = true ∧ s.mode = .profile ∧
        z.inRange = true) ∧
      Meets loaded .loading 0x03 (u8 4 ++ encNums (List.range' 1 24)) (fun s => s.tablesOk = true ∧
        s.modeOk = true ∧ s.mode = .profile ∧ rampNumberOk 4 = true ∧ reachOk (List.range' 1 24) = true) ∧
      Meets loaded .loading 0x03 (u8 1 ++ encNums [48]) (fun s => s.tablesOk = true ∧
        s.modeOk = true ∧ s.mode = .profile ∧ rampNumberOk 1 = true ∧ reachOk [48] = true) ∧
      Meets loaded .loading 0x04 (u8 6 ++ encClearances openings) (fun s => s.tablesOk = true ∧
        s.modeOk = true ∧ s.mode = .profile ∧ sectionNumberOk 6 = true ∧ openings.inRange = true) ∧
      Meets loaded .loading 0x05 (u8 10 ++ u16 300) (fun s => s.tablesOk = true ∧ s.modeOk = true ∧
        s.mode = .profile) := by
  decide

theorem witness_DefinitionsAreRemoved :
    Meets loaded .loading 0x01 (u8 1) (fun s => s.tablesOk = true ∧ s.modeOk = true ∧ s.mode = .profile ∧
        laneNumberOk 1 = true ∧ (s.lanes.get 1).isSome = true) ∧
      Meets loaded .loading 0x01 (u8 48) (fun s => s.tablesOk = true ∧ s.modeOk = true ∧
        s.mode = .profile ∧ laneNumberOk 48 = true ∧ (s.lanes.get 48).isSome = false) ∧
      Meets loaded .loading 0x02 (u8 16) (fun s => s.tablesOk = true ∧ s.modeOk = true ∧
        s.mode = .profile ∧ (s.zones.get 16).isSome = false) ∧
      Meets loaded .loading 0x03 (u8 1) (fun s => s.tablesOk = true ∧ s.modeOk = true ∧
        s.mode = .profile ∧ rampNumberOk 1 = true ∧ (s.ramps.get 1).isSome = true) ∧
      Meets loaded .loading 0x04 (u8 1) (fun s => s.tablesOk = true ∧ s.modeOk = true ∧
        s.mode = .profile ∧ sectionNumberOk 1 = true ∧ (s.sections.get 1).isSome = true) ∧
      Meets loaded .loading 0x05 [] (fun s => s.tablesOk = true ∧ s.modeOk = true ∧ s.mode = .profile) ∧
      laneNumberOk 49 = false ∧ rampNumberOk 0 = false ∧ rampNumberOk 5 = false ∧
      sectionNumberOk 0 = false ∧ sectionNumberOk 7 = false := by
  decide

theorem witness_DefinitionsAreRemoved_ranges :
    Meets loaded .loading 0x01 (u8 49 ++ encLaneProfile astern) (fun s => s.tablesOk = true ∧
        s.modeOk = true ∧ s.mode = .profile ∧ lengthFits 0x01 (u8 49 ++ encLaneProfile astern) = true) ∧
      Meets loaded .loading 0x01 (u8 0) (fun _ => lengthFits 0x01 (u8 0) = true) ∧
      Meets loaded .loading 0x02 (List.replicate 8 17) (fun _ =>
        lengthFits 0x02 (List.replicate 8 17) = true ∧ 16 < natOf (field (List.replicate 8 17) 0 1)) ∧
      Meets loaded .loading 0x03 (u8 5 ++ encNums []) (fun _ => lengthFits 0x03 (u8 5 ++ encNums []) = true ∧
        rampNumberOk (natOf (field (u8 5 ++ encNums []) 0 1)) = false) ∧
      Meets loaded .loading 0x04 (u8 7 ++ encClearances openings) (fun _ =>
        lengthFits 0x04 (u8 7 ++ encClearances openings) = true ∧
        sectionNumberOk (natOf (field (u8 7 ++ encClearances openings) 0 1)) = false) := by
  decide

/-- Profiles that fail one item of Table 1-7 each: lanes 1 and 3 on one place, zones 1 and 4 likewise, a
reach list whose second lane is undefined, a lane on an undefined section, two inputs of section 1. -/
def twinLanes : State := { loaded with lanes := loaded.lanes.set 3 (laneOf 1 0 .none [] none 0) }
def twinZones : State :=
  { loaded with
    zones := loaded.zones.set 4
      { deck := 1, aft := 2399, fore := 2400, cap := 1, confirmed := 0, pendingLoad := 0 } }
def farReach : State :=
  { loaded with ramps := [(4, { reach := [1, 48], mask := 7, suspended := false, count := 0 })] }
def noSection : State := { loaded with sections := [] }
def unsure : State := { loaded with inputs := [(1, bothInputs)] }

/-- Table 1-7: the item code and its figures. -/
theorem test_seal_items :
    sealFailure loaded = none ∧ sealFailure State.reset = some [1] ∧
      sealFailure { loaded with ramps := [] } = some [2] ∧ sealFailure twinLanes = some [3, 1, 3] ∧
      sealFailure twinZones = some [4, 1, 4] ∧ sealFailure farReach = some [5, 4, 2, 48] ∧
      sealFailure noSection = some [6, 1, 1] ∧ sealFailure unsure = some [7, 1, 2] := by decide

theorem witness_SealPassesExactlyWhen :
    loaded.tablesOk = true ∧ State.reset.tablesOk = true ∧ State.reset.lanes = [] ∧
      ({ loaded with ramps := [] } : State).ramps = [] ∧ loaded.lanes ≠ [] ∧ loaded.ramps ≠ [] ∧
      twinLanes.tablesOk = true ∧ twinZones.tablesOk = true ∧ farReach.tablesOk = true ∧
      noSection.tablesOk = true ∧ unsure.tablesOk = true ∧
      (twinLanes.lanes.get 1).map (fun l => (l.profile.deck, l.profile.row, l.profile.extent.lo)) =
        (twinLanes.lanes.get 3).map (fun l => (l.profile.deck, l.profile.row, l.profile.extent.lo)) ∧
      (profileOf 1 0 .none).extent.lo < (profileOf 1 0 .none).extent.hi ∧
      (twinZones.zones.get 4).map (·.fore) = some 2400 ∧ (farReach.ramps.get 4).map (·.reach) = some [1, 48] ∧
      farReach.lanes.get 48 = none ∧ (noSection.lanes.get 1).bind (·.profile.relation.section?) = some 1 ∧
      noSection.sections.get 1 = none ∧ (unsure.sections.get 1).isSome = true ∧
      inputCount (unsure.sectionInputs 1) = 2 := by
  decide

theorem witness_SealStartsThePlan :
    Meets loaded .loading 0x06 [] (fun s => s.tablesOk = true ∧ s.modeOk = true ∧ s.mode = .profile ∧
        sealFailure s = none) ∧
      Meets State.reset .loading 0x06 [] (fun s => s.tablesOk = true ∧ s.modeOk = true ∧
        s.mode = .profile ∧ (sealFailure s).isSome = true) := by
  decide

theorem witness_ClearPlanEmptiesThePlan :
    Meets loaded .loading 0x07 [] (fun s => s.tablesOk = true ∧ s.mode = .profile) ∧
      Meets run .loading 0x07 [] (fun s => s.tablesOk = true ∧ s.planMode = true ∧
        (∃ p ∈ s.lanes, p.2.entries ≠ [] ∨ p.2.check ≠ none) ∧ s.movements ≠ []) ∧
      Meets { calm with sections := run.sections } .loading 0x07 [] (fun s => s.tablesOk = true ∧
        s.planMode = true ∧ (∀ p ∈ s.lanes, p.2.entries = [] ∧ p.2.check = none) ∧ s.movements = [] ∧
        ∃ c ∈ s.sections, c.2.state = .moving) ∧
      Meets calm .loading 0x07 [] (fun s => s.tablesOk = true ∧ s.planMode = true ∧
        (∀ p ∈ s.lanes, p.2.entries = [] ∧ p.2.check = none) ∧ s.movements = [] ∧
        ∀ c ∈ s.sections, c.2.state ≠ .moving) ∧
      Meets { calm with monitor := { watching with divergence := 4 } } .loading 0x07 [] (fun s =>
        s.planMode = true ∧ s.movements = [] ∧ s.monitor.divergence = 4) := by
  decide

/-! Witnesses: lanes and ramps -/

theorem witness_LanesAreClosedAndOpened :
    Meets run .loading 0x40 (u8 1) (fun s => s.tablesOk = true ∧ s.isSealed = true ∧ s.planMode = true ∧
        laneNumberOk 1 = true ∧ (s.lanes.get 1).isSome = true) ∧
      Meets run .ramp4 0x41 (u8 48) (fun s => s.tablesOk = true ∧ s.isSealed = true ∧ s.planMode = true ∧
        laneNumberOk 48 = true ∧ (s.lanes.get 48).isSome = true ∧ isRampStation .ramp4 = true ∧
        48 ∈ s.reachOf .ramp4) := by
  decide

/-- The running plan with lane 1 closed. -/
def shutLane : State := { run with lanes := run.lanes.modify 1 fun l => { l with closed := true } }

theorem witness_LanesAreClosedAndOpened_reports :
    run.tablesOk = true ∧ shutLane.tablesOk = true ∧ run.isSealed = true ∧ shutLane.isSealed = true ∧
      (run.lanes.get 1).isSome = true ∧ (shutLane.lanes.get 1).isSome = true ∧
      loaded.tablesOk = true ∧ loaded.isSealed = false := by
  decide

theorem witness_LevelsMasksAndSuspensionsAreSet :
    Meets run .yard 0x22 (u8 1 ++ u8 0) (fun s => s.planMode = true ∧ laneNumberOk 1 = true ∧
        (s.lanes.get 1).isSome = true) ∧
      Meets run .yard 0x22 (u8 48 ++ u8 7) (fun s => s.planMode = true ∧ laneNumberOk 48 = true ∧
        (s.lanes.get 48).isSome = true) ∧
      Meets run .yard 0x23 (u8 1 ++ u8 0) (fun s => s.planMode = true ∧ rampNumberOk 1 = true ∧
        (s.fittedRamp 1).isSome = true) ∧
      Meets run .yard 0x23 (u8 4 ++ u8 7) (fun s => s.planMode = true ∧ rampNumberOk 4 = true ∧
        (s.fittedRamp 4).isSome = true) ∧
      Meets run .loading 0x11 (u8 1) (fun s => s.tablesOk = true ∧ s.planMode = true ∧
        rampNumberOk 1 = true ∧ (s.fittedRamp 1).isSome = true) ∧
      Meets resumed .loading 0x12 (u8 4) (fun s => s.planMode = true ∧ rampNumberOk 4 = true ∧
        (s.fittedRamp 4).isSome = true) := by
  decide

/-! Witnesses: Stability Account and Heel Monitor -/

/-- The running plan with a band that leaves no room. -/
def banded : State := { run with account := { run.account with kp := 0, ks := 0, h := 0 } }

theorem witness_BandIsSetAndChecked :
    Meets run .loading 0x08 (i32 (-2147483648) ++ i32 2147483647 ++ i32 0) (fun s => s.planMode = true) ∧
      Meets State.reset .loading 0x08 (i32 400000000 ++ i32 400000001 ++ i32 50000000) (fun s =>
        s.planMode = false) ∧
      shutLane.tablesOk = true ∧ banded.tablesOk = true ∧ banded.account.kp ≠ run.account.kp ∧
      shutLane.account = run.account ∧ shutLane.heff = run.heff ∧
      (run.zones.get 1).isSome = true ∧ (shutLane.zones.get 1) = run.zones.get 1 := by decide

theorem witness_HeelModelAndTanksAreTaken :
    Meets run .loading 0x09 (u16 65535 ++ i16 (-32768) ++ i16 32767) (fun s => s.tablesOk = true) ∧
      Meets State.reset .loading 0x0A (i32 (-2147483648)) (fun s => s.tablesOk = true ∧
        s.monitor.ok = true) ∧
      ({ run with monitor := watching } : State).working = true ∧ watching.ok = true ∧
      watching.tank = some { ta := 0, age := 30, stale := false } := by decide

theorem witness_SamplesAreTaken :
    run.working = true ∧ run.tablesOk = true ∧ run.monitor.ok = true ∧ (0 : BitVec 12).toNat = 0 ∧
      (4095 : BitVec 12).toNat = 4095 ∧ 0 < (1 : BitVec 12).toNat ∧ (4094 : BitVec 12).toNat < 4095 ∧
      (sampledMonitor run.monitor 1).state ≠ .active ∧
      ({ State.reset with monitor := watching } : State).planMode = false := by decide

theorem witness_HeelIsComparedAndReleased :
    ({ run with monitor := watching } : State).working = true ∧
      ({ run with monitor := watching } : State).tablesOk = true ∧ watching.ok = true ∧
      ({ run with monitor := watching } : State).planMode = true ∧
      (sampledMonitor watching 1).state = .active ∧ (sampledMonitor watching 4094).qualified = 4 ∧
      Meets run .loading 0x0B [] (fun s => s.tablesOk = true ∧ s.monitor.stop = false) ∧
      Meets { run with monitor := { watching with stop := true } } .loading 0x0B [] (fun s =>
        s.tablesOk = true ∧ s.monitor.stop = true ∧ 0 < s.monitor.divergence) ∧
      Meets { run with monitor := { watching with stop := true, divergence := 0 } } .loading 0x0B []
        (fun s => s.tablesOk = true ∧ s.monitor.stop = true ∧ s.monitor.divergence = 0) := by decide

theorem witness_RoundingIsToTheNearest :
    0 < (1 : Nat) ∧ 0 < (16777216 : Nat) ∧ watching.history.length ≠ 4 ∧
      (sampledMonitor watching 4094).history.length = 4 ∧ run.monitor.tank = none ∧
      watching.tank = some { ta := 0, age := 30, stale := false } ∧ run.monitor.kh = 0 := by decide

/-! Witnesses: units -/

/-- The register with every one of its 256 places taken. -/
def crowded : State := { calm with register := List.replicate 256 (unitOf 7 .announced) }

set_option maxRecDepth 4000 in
theorem witness_AnnouncedUnitsAreRegistered :
    bookingOk (nameOf 1) = true ∧ fields.inRange = true ∧
      Meets run .yard 0x20 (encBooking (nameOf 1) ++ encUnitFields fields false) (fun s =>
        s.tablesOk = true ∧ (s.findEntry (nameOf 1)).isSome = true) ∧
      Meets run .yard 0x20 (encBooking (nameOf 6) ++ encUnitFields fields true) (fun s =>
        s.findEntry (nameOf 6) = none ∧ s.findRecord (nameOf 6) = some (unitOf 6 .waiting)) ∧
      Meets run .yard 0x20 (encBooking (nameOf 8) ++ encUnitFields fields false) (fun s =>
        s.findEntry (nameOf 8) = none ∧ s.findRecord (nameOf 8) = some (unitOf 8 .excluded)) ∧
      Meets run .yard 0x20 (encBooking (nameOf 9) ++ encUnitFields fields false) (fun s =>
        s.findEntry (nameOf 9) = none ∧ s.findRecord (nameOf 9) = none ∧ s.register.length < 256) ∧
      Meets crowded .yard 0x20 (encBooking (nameOf 9) ++ encUnitFields fields false) (fun s =>
        s.findEntry (nameOf 9) = none ∧ s.findRecord (nameOf 9) = none ∧ 256 ≤ s.register.length) ∧
      Meets run .yard 0x20 (List.replicate 20 0) (fun s => s.tablesOk = true ∧
        decBooking (field (List.replicate 20 0) 0 10) = none) ∧
      Meets run .yard 0x20 (encBooking (nameOf 1) ++ List.replicate 10 0) (fun s => s.tablesOk = true ∧
        decBooking (field (encBooking (nameOf 1) ++ List.replicate 10 0) 0 10) = some (nameOf 1) ∧
        (rawUnit (List.replicate 10 0)).badField = some 2) := by decide

theorem witness_WithdrawnUnitsLeave :
    bookingOk (nameOf 7) = true ∧
      Meets run .yard 0x21 (encBooking (nameOf 7)) (fun s => s.tablesOk = true ∧
        s.findRecord (nameOf 7) = some (unitOf 7 .announced)) ∧
      Meets run .yard 0x21 (encBooking (nameOf 6)) (fun s => s.tablesOk = true ∧
        s.findRecord (nameOf 6) = some (unitOf 6 .waiting) ∧ (s.waitingAt (nameOf 6)).isSome = true) ∧
      Meets run .yard 0x21 (encBooking (nameOf 4)) (fun s => s.tablesOk = true ∧
        s.findRecord (nameOf 4) = some (unitOf 4 .check)) ∧
      Meets run .yard 0x21 (encBooking (nameOf 1)) (fun s => s.tablesOk = true ∧
        s.findRecord (nameOf 1) = none) := by decide

theorem witness_WithdrawnUnitsLeave_checks :
    Meets run .ramp1 0x21 [] (fun s => s.tablesOk = true ∧ Station.ramp1 ≠ .yard) ∧
      Meets State.reset .yard 0x21 (List.replicate 10 0) (fun s => s.tablesOk = true ∧
        (List.replicate 10 (0 : Byte)).length = 10 ∧ decBooking (List.replicate 10 0) = none) ∧
      (run.register.map (·.booking)).Nodup ∧ run.findRecord (nameOf 7) = some (unitOf 7 .announced) := by
  decide

theorem witness_SentBackUnitsReturn :
    Meets run .yard 0x33 [] (fun s => s.tablesOk = true ∧ isRampStation .yard = false) ∧
      Meets State.reset .ramp4 0x33 [] (fun s => s.tablesOk = true ∧ isRampStation .ramp4 = true ∧
        s.mode = .profile) ∧
      Meets run .ramp1 0x33 (List.replicate 10 0) (fun s => s.tablesOk = true ∧ s.planMode = true ∧
        decBooking (List.replicate 10 0) = none) ∧
      Meets run .ramp1 0x33 (encBooking (nameOf 7)) (fun s => s.planMode = true ∧
        decBooking (encBooking (nameOf 7)) = some (nameOf 7) ∧ ∀ w ∈ s.waiting, w.booking ≠ nameOf 7) ∧
      Meets run .ramp4 0x33 (encBooking (nameOf 6)) (fun s => s.planMode = true ∧
        decBooking (encBooking (nameOf 6)) = some (nameOf 6) ∧
        (s.waitingAt (nameOf 6)).map (fun w => (w.1, w.2.ramp)) = some (1, 1) ∧
        rampOf .ramp4 ≠ some 1 ∧ rampOf .ramp1 = some 1) := by decide

/-! Witnesses: admission -/

/-- The calm ship with a band that admits, and G1 announced; lane 48 is the centred one. -/
def roomy : State :=
  { calm with
    account := { calm.account with kp := 1000000, ks := 1000000 }
    register := [unitOf 7 .announced] }

/-- The same ship with its headroom taken away. -/
def barred : State := { roomy with lanes := roomy.lanes.mapAll fun l => { l with clearance := 299 } }

/-- The row of ramp 1 in the calm ship. -/
def gate : Ramp := { reach := [1, 48], mask := 7, suspended := false, count := 0 }

theorem witness_ChosenLaneFitsTheUnit :
    roomy.evaluate gate body = .chosen 48 ∧ roomy.tablesOk = true ∧ roomy.movements.length < 16 ∧
      gate.count < 6 ∧ roomy.poolInUse < 640 ∧ 48 ∈ gate.reach ∧
      roomy.lanes.get 48 = some (laneOf 8 0 .none [] none 0) ∧
      (roomy.laneReason 7 body (laneOf 8 0 .none [] none 0) = none) ∧
      (barred.laneReason 7 body { laneOf 8 0 .none [] none 0 with clearance := 299 }).isSome = true := by
  decide

/-- Lane 48 of the roomy ship takes the unit. -/
theorem witness_ChosenLaneFitsTheUnit_takes : roomy.Takes 7 body (laneOf 8 0 .none [] none 0) where
  level := by decide
  sect := by decide
  shown := by decide
  idle := by decide
  room := by decide
  kind := by decide
  length := by decide
  height := by decide
  order := by decide
  reefer := by decide
  dg := nofun
  laneMass := by decide
  zoneMass := fun _ _ _ h => nomatch h
  heelUpper := by decide
  heelLower := by decide

/-- A waiting element of G1 through ramp 1 that has failed `k` times. -/
def hopeful (k : Nat) : Waiting := { booking := nameOf 7, ramp := 1, retries := k, reasons := [] }

theorem witness_LevelsMasksAndSuspensionsAreSet_pass :
    roomy.tablesOk = true ∧ resumed.mode ≠ .run ∧ run.monitor.stop = false ∧ run.mode = .run ∧
      ({ run with monitor := { watching with stop := true } } : State).monitor.stop = true ∧
      roomy.fittedRamp 1 = some gate ∧ gate.suspended = false ∧
      roomy.findRecord (hopeful 0).booking = some (unitOf 7 .announced) ∧
      roomy.evaluate gate (unitOf 7 .announced).body = .chosen 48 ∧ (roomy.lanes.get 48).isSome = true ∧
      barred.fittedRamp 1 = some gate ∧
      barred.findRecord (hopeful 0).booking = some (unitOf 7 .announced) ∧
      barred.evaluate gate (unitOf 7 .announced).body = .held [(.height, 2)] ∧
      (hopeful 14).retries + 1 < 16 ∧ 16 ≤ (hopeful 15).retries + 1 ∧
      (run.fittedRamp 2).map (·.suspended) = some true ∧
      run.findRecord (nameOf 6) = some (unitOf 6 .waiting) := by
  decide

theorem witness_ExaminationFollowsItsSteps :
    roomy.evaluate gate body = .chosen 48 ∧ (roomy.lanes.get 48).isSome = true ∧ 1 ∈ gate.reach ∧
      (roomy.lanes.get 1).bind (roomy.laneReason 7 body) = none ∧
      6 ≤ ({ gate with count := 6 } : Ramp).count ∧
      barred.evaluate gate body = .held [(.height, 2)] ∧ barred.movements.length < 16 ∧
      gate.count < 6 ∧ barred.poolInUse < 640 := by decide

set_option maxRecDepth 4000 in
theorem witness_BookingsAreLookedUp :
    run.findRecord (nameOf 7) = some (unitOf 7 .announced) ∧
      run.findRecord (nameOf 8) = some (unitOf 8 .excluded) ∧
      run.findRecord (nameOf 2) = some (unitOf 2 .reserved) ∧
      run.findRecord (nameOf 1) = none ∧ (run.findEntry (nameOf 1)).isSome = true ∧
      run.findRecord (nameOf 9) = none ∧ run.findEntry (nameOf 9) = none ∧
      (∀ p ∈ run.lanes, p.2.check.map (·.booking) ≠ some (nameOf 9)) ∧
      (rawUnit (List.replicate 10 0)).badField = some 2 ∧ fields.inRange = true ∧
      256 ≤ crowded.register.length ∧ crowded.findRecord (nameOf 9) = none ∧
      crowded.findEntry (nameOf 9) = none := by decide

theorem witness_ArrivalsAreAssigned :
    Meets roomy .ramp1 0x30 (encBooking (nameOf 7)) (fun s => rampOf .ramp1 = some 1 ∧ s.mode = .run ∧
        s.fittedRamp 1 = some gate ∧ s.clock.reached = false ∧ s.monitor.stop = false ∧
        decBooking (field (encBooking (nameOf 7)) 0 10) = some (nameOf 7) ∧
        lookupUnit s (nameOf 7) none = .use s (unitOf 7 .announced) false ∧
        s.evaluate gate (unitOf 7 .announced).body = .chosen 48 ∧ (s.lanes.get 48).isSome = true) := by
  decide

theorem witness_ArrivalsWait :
    Meets run .ramp2 0x30 [] (fun s => s.tablesOk = true ∧ s.mode = .run ∧
        (s.fittedRamp 2).map (·.suspended) = some true) ∧
      Meets { roomy with clock := { now := 9, cutoff := some 9, reached := true } } .ramp1 0x30 []
        (fun s => s.tablesOk = true ∧ s.mode = .run ∧ s.fittedRamp 1 = some gate ∧
          s.clock.reached = true) ∧
      Meets roomy .ramp1 0x30 (List.replicate 10 0) (fun s => s.mode = .run ∧ s.fittedRamp 1 = some gate ∧
        decBooking (field (List.replicate 10 0) 0 10) = none) ∧
      Meets roomy .ramp1 0x30 (encBooking (nameOf 9)) (fun s => s.fittedRamp 1 = some gate ∧
        decBooking (field (encBooking (nameOf 9)) 0 10) = some (nameOf 9) ∧
        lookupUnit s (nameOf 9) none = .stop (.refuse .unknown [])) ∧
      Meets barred .ramp1 0x30 (encBooking (nameOf 7)) (fun s =>
        s.tablesOk = true ∧ s.mode = .run ∧ s.fittedRamp 1 = some gate ∧ s.monitor.stop = false ∧
        lookupUnit s (nameOf 7) none = .use s (unitOf 7 .announced) false ∧
        s.evaluate gate (unitOf 7 .announced).body = .held [(.height, 2)] ∧
        s.waiting.length < 16) ∧
      Meets { roomy with monitor := { watching with stop := true }
                         waiting := List.replicate 16
                           { booking := nameOf 6, ramp := 1, retries := 0, reasons := [] } } .ramp1 0x30
        (encBooking (nameOf 7)) (fun s => s.monitor.stop = true ∧ s.fittedRamp 1 = some gate ∧
          lookupUnit s (nameOf 7) none = .use s (unitOf 7 .announced) false ∧ 16 ≤ s.waiting.length) := by
  decide

theorem witness_UnlashReleasesTheOpenEndUnit :
    bookingOk (nameOf 1) = true ∧
      Meets run .ramp2 0x34 (encBooking (nameOf 1)) (fun s => s.tablesOk = true ∧ s.mode = .run ∧
        (s.fittedRamp 2).map (·.suspended) = some true) ∧
      Meets { run with monitor := { watching with stop := true } } .ramp1 0x34 (encBooking (nameOf 1))
        (fun s => s.mode = .run ∧ (s.fittedRamp 1).map (·.suspended) = some false ∧
          s.monitor.stop = true) ∧
      Meets run .ramp1 0x34 (encBooking (nameOf 4)) (fun s => s.findEntry (nameOf 4) = none ∧
        (s.findLoadCheck (nameOf 4)).isSome = true) ∧
      Meets run .ramp1 0x34 (encBooking (nameOf 3)) (fun s =>
        (s.findEntry (nameOf 3)).map (·.entry.state) = some .leaving) ∧
      Meets run .ramp4 0x34 (encBooking (nameOf 1)) (fun s => (s.fittedRamp 4).map (·.reach) = some [48] ∧
        (s.findEntry (nameOf 1)).map (·.laneNo) = some 1) ∧
      Meets run .ramp1 0x34 (encBooking (nameOf 5)) (fun s =>
        (s.findEntry (nameOf 5)).map (fun g => s.displayed g.lane) = some .check) ∧
      Meets run .ramp1 0x34 (encBooking (nameOf 1)) (fun s => s.monitor.stop = false ∧
        s.movements.length < 16 ∧ (s.findEntry (nameOf 1)).map (fun g =>
          (g.entry.state, s.displayed g.lane, g.lane.inService, g.lane.entries.length - g.position)) =
            some (.stowed, .filling, false, 0) ∧
        s.lowerLimit ≤ s.account.tc + s.account.pMinus + -10000) ∧
      Meets banded .ramp1 0x34 (encBooking (nameOf 1)) (fun s =>
        s.account.tc + s.account.pMinus + -10000 < s.lowerLimit) := by decide

theorem witness_UnlashReleasesTheOpenEndUnit_booking :
    Meets run .ramp1 0x34 (List.replicate 10 0) (fun s => s.tablesOk = true ∧ rampOf .ramp1 = some 1 ∧
        s.mode = .run ∧ (s.fittedRamp 1).map (·.suspended) = some false ∧ s.monitor.stop = false ∧
        decBooking (List.replicate 10 0) = none) := by decide

/-! Witnesses: movements -/

theorem witness_LoadsAreConfirmed :
    Meets run .ramp1 0x31 [] (fun s => s.sound = true ∧ rampOf .ramp1 = some 1 ∧ s.planMode = true ∧
        (s.lanes.get 2).isSome = true ∧ s.oldest 1 .load = some (moveOf 2 2 .load 10000 1)) ∧
      Meets run .ramp4 0x32 (u8 2 ++ encBooking (nameOf 2)) (fun s => s.sound = true ∧
        rampOf .ramp4 = some 4 ∧ s.planMode = true ∧ bookingOk (nameOf 2) = true ∧
        s.reservationOn 2 = some (moveOf 2 2 .load 10000 1)) := by decide

set_option maxRecDepth 4000 in
theorem witness_LoadsAreConfirmed_refusals :
    requestOf (.lashed .ramp4) = some (0x31, .ramp4) ∧ requestOf (.backout .ramp1) = some (0x32, .ramp1) ∧
      Meets run .ramp4 0x31 [] (fun s => s.tablesOk = true ∧ rampOf .ramp4 = some 4 ∧
        s.planMode = true ∧ s.oldest 4 .load = none) ∧
      Meets run .ramp1 0x32 (u8 0 ++ encBooking (nameOf 2)) (fun s => s.tablesOk = true ∧
        rampOf .ramp1 = some 1 ∧ (u8 0 ++ encBooking (nameOf 2)).length = 11 ∧
        field (u8 0 ++ encBooking (nameOf 2)) 0 1 = u8 0 ∧ laneNumberOk 0 = false ∧
        laneNumberOk 49 = false) ∧
      Meets run .ramp1 0x31 (u8 48 ++ List.replicate 10 0) (fun s => s.planMode = true ∧
        laneNumberOk 48 = true ∧ field (u8 48 ++ List.replicate 10 0) 0 1 = u8 48 ∧
        decBooking (field (u8 48 ++ List.replicate 10 0) 1 10) = none) ∧
      Meets run .ramp1 0x31 (u8 47 ++ encBooking (nameOf 2)) (fun s => s.lanes.get 47 = none ∧
        decBooking (field (u8 47 ++ encBooking (nameOf 2)) 1 10) = some (nameOf 2)) := by decide

theorem witness_LoadsAreConfirmed_mismatches :
    Meets run .ramp1 0x31 (u8 3 ++ encBooking (nameOf 3)) (fun s => (s.lanes.get 3).isSome = true ∧
        s.reservationOn 3 = some (moveOf 3 3 .discharge (-10000) 2)) ∧
      Meets run .ramp1 0x32 (u8 2 ++ encBooking (nameOf 1)) (fun s => (s.lanes.get 2).isSome = true ∧
        s.reservationOn 2 = some (moveOf 2 2 .load 10000 1) ∧ nameOf 2 ≠ nameOf 1) ∧
      Meets run .ramp1 0x31 (u8 1 ++ encBooking (nameOf 1)) (fun s => s.reservationOn 1 = none ∧
        (s.lanes.get 1).map (·.check) = some none) ∧
      Meets run .ramp1 0x31 (u8 5 ++ encBooking (nameOf 5)) (fun s => s.reservationOn 5 = none ∧
        (s.lanes.get 5).bind (·.check) = some (checkOf 5 10000 .discharge)) ∧
      Meets run .ramp1 0x31 (u8 4 ++ encBooking (nameOf 1)) (fun s => s.reservationOn 4 = none ∧
        (s.lanes.get 4).bind (·.check) = some (checkOf 4 (-10000) (.load body)) ∧ nameOf 4 ≠ nameOf 1) ∧
      Meets run .ramp1 0x32 (u8 4 ++ encBooking (nameOf 4)) (fun s => s.reservationOn 4 = none ∧
        (s.lanes.get 4).bind (·.check) = some (checkOf 4 (-10000) (.load body))) := by decide

theorem witness_DischargesAreConfirmed :
    Meets run .ramp1 0x35 [] (fun s => s.sound = true ∧ rampOf .ramp1 = some 1 ∧ s.planMode = true ∧
        s.oldest 1 .discharge = some (moveOf 3 3 .discharge (-10000) 2)) ∧
      Meets run .ramp4 0x36 (encBooking (nameOf 3)) (fun s => s.sound = true ∧ s.planMode = true ∧
        bookingOk (nameOf 3) = true ∧ s.reservationOn 3 = some (moveOf 3 3 .discharge (-10000) 2)) := by
  decide

set_option maxRecDepth 4000 in
theorem witness_DischargesAreConfirmed_refusals :
    requestOf (.offloaded .ramp4) = some (0x35, .ramp4) ∧ requestOf (.keep .ramp1) = some (0x36, .ramp1) ∧
      Meets run .ramp4 0x35 [] (fun s => s.tablesOk = true ∧ rampOf .ramp4 = some 4 ∧
        s.planMode = true ∧ s.oldest 4 .discharge = none) ∧
      Meets run .ramp1 0x36 (List.replicate 10 0) (fun s => s.planMode = true ∧
        decBooking (List.replicate 10 0) = none) ∧
      Meets run .ramp1 0x35 (encBooking (nameOf 9)) (fun s =>
        decBooking (encBooking (nameOf 9)) = some (nameOf 9) ∧ s.findEntry (nameOf 9) = none ∧
        s.findLoadCheck (nameOf 9) = none) ∧
      Meets run .ramp1 0x35 (encBooking (nameOf 4)) (fun s => s.findEntry (nameOf 4) = none ∧
        (s.findLoadCheck (nameOf 4)).map (·.1) = some 4 ∧ s.reservationOn 4 = none) ∧
      Meets run .ramp1 0x35 (encBooking (nameOf 2)) (fun s =>
        (s.findEntry (nameOf 2)).map (fun g => (g.entry.state, g.laneNo)) = some (.reserved, 2) ∧
        s.reservationOn 2 = some (moveOf 2 2 .load 10000 1)) ∧
      Meets run .ramp1 0x36 (encBooking (nameOf 5)) (fun s =>
        (s.findEntry (nameOf 5)).map (fun g => (g.entry.state, g.laneNo, g.position, g.lane.check)) =
          some (.stowed, 5, 1, some (checkOf 5 10000 .discharge)) ∧ s.reservationOn 5 = none) ∧
      Meets run .ramp1 0x35 (encBooking (nameOf 1)) (fun s =>
        (s.findEntry (nameOf 1)).map (fun g => (g.entry.state, g.lane.check)) = some (.stowed, none)) := by
  decide

/-- Lane 4 with a unit that leaves the check record's unit too little room. -/
def cramped : State :=
  State.commit
    { run with
      lanes := run.lanes.set 4
        { laneOf 4 (-100) .none
            [{ booking := nameOf 9, unit := { body with length := 160 }, offset := 0, state := .stowed }]
            (some { checkOf 4 (-10000) (.load body) with offset := 163 }) 100 with clearance := 400 }
      zones := [(1, { deck := 1, aft := 0, fore := 2400, cap := 5000, confirmed := 400, pendingLoad := 200 })]
      account := { run.account with tc := 0 }
      poolInUse := 6 }

/-- Lane 4 with less headroom than the check record's unit needs. -/
def low : State := State.commit { run with lanes := run.lanes.modify 4 fun l => { l with clearance := 299 } }

theorem witness_LateConfirmationsAreTaken :
    Meets cramped .ramp1 0x31 (u8 4 ++ encBooking (nameOf 4)) (fun s => s.sound = true ∧
        s.planMode = true ∧ (s.lanes.get 4).map (fun l => (l.profile.length, l.check.map (·.offset))) =
          some (200, some 163) ∧ body.length = 50) ∧
      Meets low .ramp1 0x31 (u8 4 ++ encBooking (nameOf 4)) (fun s => s.sound = true ∧ s.planMode = true ∧
        (s.lanes.get 4).map (·.clearance) = some 299 ∧ body.height = 300) ∧
      Meets run .ramp2 0x31 (u8 4 ++ encBooking (nameOf 4)) (fun s => s.sound = true ∧
        rampOf .ramp2 = some 2 ∧ s.planMode = true ∧ bookingOk (nameOf 4) = true ∧
        (s.lanes.get 4).bind (·.check) = some (checkOf 4 (-10000) (.load body)) ∧
        s.lowerLimit ≤ s.account.tc + s.account.pMinus) ∧
      Meets (State.commit banded) .ramp1 0x31 (u8 4 ++ encBooking (nameOf 4)) (fun s => s.sound = true ∧
        s.account.tc + s.account.pMinus < s.lowerLimit) ∧
      Meets run .ramp1 0x35 (encBooking (nameOf 5)) (fun s => s.sound = true ∧ s.planMode = true ∧
        (s.lanes.get 5).bind (·.check) = some (checkOf 5 10000 .discharge) ∧
        (s.lanes.get 5).bind (·.entries.getLast?) = some (entryOf 5 .stowed)) := by decide

theorem witness_VerifiesAndExpiries :
    Meets run .ramp1 0x42 (u8 1) (fun s => s.tablesOk = true ∧ s.planMode = true ∧
        laneNumberOk 1 = true ∧ isRampStation .ramp1 = true ∧ 1 ∈ s.reachOf .ramp1 ∧
        (s.lanes.get 1).bind (·.check) = none) ∧
      Meets run .loading 0x42 (u8 48) (fun s => (s.lanes.get 48).bind (·.check) = none) ∧
      Meets run .loading 0x42 (u8 4) (fun s =>
        (s.lanes.get 4).bind (·.check) = some (checkOf 4 (-10000) (.load body))) ∧
      Meets run .loading 0x42 (u8 5) (fun s =>
        (s.lanes.get 5).bind (·.check) = some (checkOf 5 10000 .discharge)) ∧
      run.sound = true ∧ run.working = true ∧
      run.reservationOn 2 = some (moveOf 2 2 .load 10000 1) ∧ (moveOf 2 2 .load 10000 1).seconds = 0 ∧
      (run.lanes.get 2).bind (·.entries.getLast?) = some (entryOf 2 .reserved) ∧
      run.reservationOn 3 = some (moveOf 3 3 .discharge (-10000) 2) ∧
      (run.lanes.get 3).bind (·.entries.getLast?) = some (entryOf 3 .leaving) := by decide

/-! Witnesses: plan clock -/

/-- The plan clock a second short of a cut-off. -/
def late : State := { run with clock := { now := 99, cutoff := some 100, reached := false } }

theorem witness_CutoffFollowsItsRule :
    Meets run .yard 0x0D (u32 1) (fun s => s.tablesOk = true ∧ Station.yard ≠ .loading) ∧
      Meets State.reset .loading 0x0D (u32 1) (fun s => s.tablesOk = true ∧ s.mode = .profile) ∧
      Meets late .loading 0x0D (u32 0) (fun s => s.tablesOk = true ∧ s.planMode = true) ∧
      Meets late .loading 0x0D (u32 99) (fun s => s.planMode = true ∧ 99 ≤ s.clock.now) ∧
      Meets late .loading 0x0D (u32 100) (fun s => s.planMode = true ∧ s.clock.now < 100) ∧
      Meets late .loading 0x0D (u32 4294967295) (fun s => s.planMode = true ∧ s.clock.now < 4294967295) := by
  decide

theorem witness_ClockRunsToTheCutoff :
    run.tablesOk = true ∧ run.working = true ∧ run.planMode = true ∧ run.clock.cutoff = none ∧
      late.tablesOk = true ∧ late.working = true ∧ late.planMode = true ∧
      late.clock.cutoff = some 100 ∧ late.clock.reached = false ∧ 100 ≤ min 4294967295 (late.clock.now + 1) ∧
      Meets late .loading 0x0E (u32 99) (fun s => s.clock.cutoff = some 100 ∧ ¬ 100 ≤ 99) ∧
      Meets late .loading 0x0E (u32 100) (fun s => s.clock.cutoff = some 100 ∧ s.clock.reached = false) ∧
      Meets run .loading 0x0E (u32 4294967295) (fun s => s.clock.cutoff = none) ∧
      Meets State.reset .loading 0x0C (i16 (-32768)) (fun s => s.tablesOk = true) ∧
      Meets run .loading 0x0C (i16 32767) (fun s => s.tablesOk = true) := by decide

/-! Witnesses: deck sections -/

/-- The running plan with section 1 raised over lane 7, which holds a unit, and lane 6 with another. -/
def covered : State :=
  { run with
    lanes := run.lanes.modify 7 fun l => { l with entries := [entryOf 9 .stowed] }
    sections := run.sections.set 1 (sectAt .atPosition (some .raised) none none 0) }

/-- Lane 7 beneath section 1 with a check record. -/
def tied : State := { run with lanes := run.lanes.modify 7 fun l => { l with check := some (checkOf 9 0 .discharge) } }

/-- Section 3 waits with nothing left to wait for, or with a fault held. -/
def freed : State := { run with movements := [] }
def holding : State :=
  { freed with
    sections := run.sections.set 3
      { sectAt .movePending (some .raised) none (some .inputLost) 0 with faultHeld := true } }

theorem witness_SectionsMoveWaitAndCancel :
    Meets run .loading 0x13 (u8 1 ++ u8 (positionCode (some .lowered))) (fun s => s.tablesOk = true ∧
        s.planMode = true ∧ sectionNumberOk 1 = true ∧
        (s.fittedSection 1).map (fun c => (c.holds, c.position)) = some (true, some .lowered)) ∧
      Meets run .loading 0x13 (u8 2 ++ u8 (positionCode (some .raised))) (fun s =>
        (s.fittedSection 2).map (·.state) = some .moving) ∧
      Meets run .loading 0x13 (u8 3 ++ u8 (positionCode (some .mid))) (fun s =>
        (s.fittedSection 3).map (fun c => (c.state, c.position)) = some (.movePending, some .raised)) ∧
      Meets run .loading 0x13 (u8 4 ++ u8 (positionCode (some .mid))) (fun s =>
        (s.fittedSection 4).map (·.state) = some .fault) ∧
      Meets run .loading 0x13 (u8 6 ++ u8 0) (fun s => s.tablesOk = true ∧ s.planMode = true ∧
        sectionNumberOk 6 = true ∧ (s.fittedSection 6).isSome = true) ∧
      Meets run .loading 0x13 (u8 1 ++ u8 4) (fun s => 3 < 4 ∧ 255 < 256 ∧
        (s.fittedSection 1).isSome = true) := by decide

theorem witness_SectionsMoveWaitAndCancel_numbers :
    Meets run .loading 0x13 (u8 0 ++ u8 0) (fun s => s.tablesOk = true ∧ s.planMode = true ∧
        sectionNumberOk 0 = false) ∧
      Meets run .loading 0x13 (u8 7 ++ u8 1) (fun s => s.tablesOk = true ∧ s.planMode = true ∧
        sectionNumberOk 7 = false) ∧
      Meets run .loading 0x14 (u8 255) (fun s => s.tablesOk = true ∧ s.planMode = true ∧
        sectionNumberOk 255 = false) ∧
      (run.lanes.get 1).map (·.profile.relation.section?) = some none ∧ run.lanes.get 47 = none ∧
      (noSection.lanes.get 1).bind (·.profile.relation.section?) = some 1 ∧
      noSection.sections.get 1 = none := by decide

/-- R140, check 3: section 7 is refused FIELD naming field 1, with nothing else. -/
theorem test_move_of_no_section :
    replyTo run .loading 0x13 (u8 7 ++ u8 1) (.move .loading) = some (0x81, [0x13, 3, 1, 0]) := by decide

theorem witness_SectionsMoveWaitAndCancel_checks :
    Meets { run with lanes := run.lanes.modify 6 fun l => { l with entries := [entryOf 9 .stowed] } }
        .loading 0x13 (u8 1 ++ u8 (positionCode (some .raised))) (fun s =>
          (s.fittedSection 1).map (·.state) = some .atPosition ∧ s.loadedLane 1 = some (6, 1)) ∧
      Meets covered .loading 0x13 (u8 1 ++ u8 (positionCode (some .lowered))) (fun s =>
        (s.fittedSection 1).map (fun c => (c.state, c.position)) = some (.atPosition, some .raised) ∧
        s.loadedLane 1 = none ∧ (tallest (s.unitsBeneath 1)).map (·.height) = some 300 ∧
        openings.beneath .lowered < 300) ∧
      Meets run .loading 0x13 (u8 6 ++ u8 (positionCode (some .raised))) (fun s => s.tablesOk = true ∧
        s.planMode = true ∧ sectionNumberOk 6 = true ∧
        (s.fittedSection 6).map (fun c => (c.state, c.position)) = some (.atPosition, some .lowered) ∧
        s.loadedLane 6 = none ∧ (∀ u ∈ s.unitsBeneath 6, u.height ≤ openings.beneath .raised) ∧
        s.pendingLanes 6 = []) ∧
      Meets tied .loading 0x13 (u8 1 ++ u8 (positionCode (some .raised))) (fun s =>
        (s.fittedSection 1).map (·.state) = some .atPosition ∧ s.loadedLane 1 = none ∧
        (∀ u ∈ s.unitsBeneath 1, u.height ≤ openings.beneath .raised) ∧ s.pendingLanes 1 = [7]) := by decide

theorem witness_SectionsMoveWaitAndCancel_cancel :
    Meets run .loading 0x14 (u8 1) (fun s => s.planMode = true ∧
        (s.fittedSection 1).map (·.state) = some .atPosition) ∧
      Meets holding .loading 0x14 (u8 3) (fun s =>
        (s.fittedSection 3).map (fun c => (c.state, c.faultHeld)) = some (.movePending, true)) ∧
      Meets run .loading 0x14 (u8 3) (fun s => s.tablesOk = true ∧ s.planMode = true ∧
        (s.fittedSection 3).map (fun c => (c.state, c.faultHeld)) = some (.movePending, false)) := by decide

theorem witness_SectionsMoveWaitAndCancel_resolved :
    (run.lanes.get 2).bind (·.profile.relation.section?) = some 3 ∧ run.pendingLanes 3 = [2] ∧
      (freed.lanes.get 2).bind (·.profile.relation.section?) = some 3 ∧ freed.pendingLanes 3 = [] ∧
      (freed.sections.get 3).map (fun c => (c.state, c.faultHeld)) = some (.movePending, false) ∧
      holding.pendingLanes 3 = [] ∧
      (holding.sections.get 3).map (fun c => (c.state, c.faultHeld, c.cause)) =
        some (.movePending, true, some .inputLost) := by decide

/-- Section 2 moving from lowered to raised. -/
def rising : State :=
  { run with sections := run.sections.modify 2 fun c => { c with timer := 240 } }

theorem witness_SectionsFollowTheirInputs :
    sectionNumberOk 1 = true ∧ sectionNumberOk 6 = true ∧ run.tablesOk = true ∧
      State.reset.planMode = false ∧ asleep.working = false ∧ run.sectionInputs 1 = lowered ∧
      run.fittedSection 5 = none ∧ run.working = true ∧ run.planMode = true ∧
      (run.fittedSection 4).map (·.state) = some .fault ∧ run.sectionInputs 4 ≠ lowered ∧
      (rising.fittedSection 2).map (fun c => (c.state, c.target, c.origin)) =
        some (.moving, some .raised, some .lowered) ∧ rising.sectionInputs 2 ≠ lowered ∧
      ({ rising with inputs := rising.inputs.set 2 lowered } : State).sectionInputs 2 ≠ noInput ∧
      inputCount noInput = 0 ∧ inputCount bothInputs = 2 ∧ shownPosition lowered = some .lowered ∧
      shownPosition raisedOnly = some .raised ∧
      shownPosition { raised := false, mid := true, lowered := false } = some .mid ∧
      run.sectionInputs 1 ≠ raisedOnly ∧ (run.fittedSection 1).map (fun c => (c.holds, c.faultHeld)) =
        some (true, false) ∧ run.pendingLanes 1 = [] ∧ run.sectionInputs 3 ≠ noInput ∧
      (run.fittedSection 3).map (fun c => (c.holds, c.faultHeld)) = some (true, false) ∧
      run.pendingLanes 3 ≠ [] ∧
      (holding.fittedSection 3).map (fun c => (c.holds, c.faultHeld)) = some (true, true) ∧
      ({ run with inputs := run.inputs.set 1 noInput } : State).sectionInputs 1 ≠ lowered ∧
      (run.fittedSection 1).map (·.position) = some (some .lowered) := by decide

/-- Section 4 in FAULT whose inputs show a position. -/
def mended (i : Inputs) : State := { run with inputs := run.inputs.set 4 i }

theorem witness_FaultsAreRaisedAndCleared :
    run.tablesOk = true ∧ run.working = true ∧
      (run.fittedSection 2).map (fun c => (c.state, c.timer)) = some (.moving, 0) ∧
      Meets run .loading 0x15 (u8 2) (fun s => s.tablesOk = true ∧ s.planMode = true ∧
        sectionNumberOk 2 = true ∧ (s.fittedSection 2).map (·.state) = some .moving) ∧
      Meets run .loading 0x15 (u8 0) (fun s => s.tablesOk = true ∧ s.planMode = true ∧
        sectionNumberOk 0 = false ∧ sectionNumberOk 7 = false) ∧
      Meets holding .loading 0x15 (u8 3) (fun s =>
        (s.fittedSection 3).map (fun c => (c.state, c.faultHeld)) = some (.movePending, true)) ∧
      Meets run .loading 0x15 (u8 3) (fun s =>
        (s.fittedSection 3).map (fun c => (c.state, c.faultHeld)) = some (.movePending, false)) ∧
      Meets run .loading 0x15 (u8 6) (fun s => sectionNumberOk 6 = true ∧
        (s.fittedSection 6).map (·.state) = some .atPosition) ∧
      Meets (mended bothInputs) .loading 0x15 (u8 4) (fun s =>
        (s.fittedSection 4).map (·.state) = some .fault ∧ shownPosition (s.sectionInputs 4) = none) ∧
      Meets (mended lowered) .loading 0x15 (u8 4) (fun s => s.tablesOk = true ∧ s.planMode = true ∧
        shownPosition (s.sectionInputs 4) = some .lowered) ∧
      Meets (mended raisedOnly) .loading 0x15 (u8 4) (fun s =>
        shownPosition (s.sectionInputs 4) = some .raised ∧ s.loadedLane 4 = none) ∧
      Meets { mended raisedOnly with lanes := run.lanes.modify 1 fun l =>
          { l with profile := { l.profile with relation := .on 4 } } } .loading 0x15 (u8 4) (fun s =>
        shownPosition (s.sectionInputs 4) = some .raised ∧ s.loadedLane 4 = some (1, 1)) := by decide

/-! Witnesses: modes and starts -/

theorem witness_ModesChangeAsCommanded :
    Meets run .loading 0x0F [] (fun s => s.tablesOk = true ∧ s.mode = .run) ∧
      Meets resumed .loading 0x0F [] (fun s => s.tablesOk = true ∧ s.mode = .recovery) ∧
      asleep.working = false ∧ run.working = true ∧ run.control.down = false ∧ asleep.awake = true ∧
      asleep.control.down = true ∧
      (∀ st ∈ allStations, (asleep.links.get st).ready = (asleep.links.get st).readyInput) ∧
      (∀ p ∈ asleep.sections, p.2.holds = true → asleep.inputsAgree p.1 p.2 = true) ∧
      asleep.tablesOk = true ∧ State.reset.control.down = false := by decide

/-- POWER_DOWN in which the loading computer, PRESENT, and ramp 4 have dropped line-ready, the yard's receiver
holds a frame partly received, section 1 has left its position and section 3, too, with lane 2 pending. -/
def dozing : State :=
  let drop (l : Link) : Link := { l with ready := true, readyInput := false }
  ((({ asleep with inputs := [(1, raisedOnly), (6, lowered)] } : State).setStation .loading
    { asleep.stations.get .loading with present := true, quiet := some 10 }).setLink .loading
      (drop (asleep.links.get .loading))).setLink .ramp4 (drop (asleep.links.get .ramp4)) |>.setLink .yard
        { asleep.links.get .yard with receiver := .gathering [startByte] }

theorem witness_ModesChangeAsCommanded_resumption :
    dozing.awake = true ∧ dozing.control.down = true ∧ dozing.tablesOk = true ∧ dozing.isSealed = true ∧
      ((dozing.links.get .loading).ready && !(dozing.links.get .loading).readyInput) = true ∧
      (dozing.stations.get .loading).present = true ∧
      ((dozing.links.get .ramp4).ready && !(dozing.links.get .ramp4).readyInput) = true ∧
      (dozing.stations.get .ramp4).present = false ∧
      (dozing.sections.get 1).map (fun c => decide (dozing.resumedSection 1 c = c)) = some false ∧
      (dozing.sections.get 3).map (fun c => (dozing.resumedSection 3 c).faultHeld) = some true := by
  decide

/-- R150, R155, R168: behind MODE stands the presence of the station whose line-ready fell; the partly
received frame stays (notes/assumptions/22.md). -/
theorem test_resumption_reports_the_fallen_line :
    let t := after .powerRestored dozing
    ((t.links.get .yard).queue.drop (dozing.links.get .yard).queue.length).map (·.kind) = [0xD0, 0xCF] ∧
      (t.stations.get .loading).present = false ∧ (t.links.get .loading).ready = false ∧
      (t.links.get .yard).receiver = .gathering [startByte] := by decide

theorem witness_StartsAndSecondsPass :
    run.tablesOk = true ∧ run.store.intact = true ∧ asleep.tablesOk = true ∧ run.working = true ∧
      ({ run with store := { run.store with intact := false } } : State).store.intact = false := by decide

/-! Witnesses: links, notices, reads and outputs -/

/-- A frame of the yard, as it crosses a link. -/
def query : Frame := asked 0x54 []

/-- The loading computer is PRESENT. -/
def heardFrom (s : State) (st : Station) : State :=
  s.setStation st { s.stations.get st with present := true, quiet := some 10 }

set_option maxRecDepth 4000 in
theorem witness_FramesAreReceivedAndSent :
    run.linkLive .yard = true ∧ run.tablesOk = true ∧ (run.links.get .yard).receiver = .hunting ∧
      query.payload.length ≤ 100 ∧ ((heardFrom run .yard).stations.get .yard).present = true ∧
      (heardFrom run .yard).linkLive .yard = true ∧ (run.stations.get .yard).present = false ∧
      (run.stations.get .loading).present = false ∧ run.linkLive .loading = true ∧
      resumed.mode = .recovery ∧ (resumed.stations.get .loading).present = false ∧
      resumed.linkLive .loading = true ∧ (resumed.links.get .loading).receiver = .hunting ∧
      gather .hunting (wireBytes .ramp1 query) = (.hunting, [wireBytes .ramp1 query]) ∧
      validFrame .yard (wireBytes .ramp1 query) = none ∧ asleep.linkLive .yard = false ∧
      (∀ b ∈ ([0, 0xFF] : List Byte), b ≠ startByte) ∧ 100 < (101 : Byte).toNat ∧
      100 < startByte.toNat ∧ run.awake = true ∧
      ((run.setLink .yard { run.links.get .yard with receiver := .gathering [startByte] }).links.get
        .yard).receiver = .gathering [startByte] ∧
      ((run.setLink .yard { run.links.get .yard with receiver := .inBreak }).links.get .yard).receiver =
        .inBreak ∧
      State.reset.linkLive .ramp4 = true ∧ State.reset.tablesOk = true ∧
      (State.reset.links.get .ramp4).queue = coldModeFrame :: [] := by decide

theorem witness_LinksAreResetAndWatched :
    run.tablesOk = true ∧ run.working = true ∧ (run.links.get .yard).ready = true ∧
      (run.links.get .yard).receiver ≠ .inBreak ∧
      ((heardFrom run .loading).stations.get .loading).present = true ∧
      ((heardFrom run .loading).stations.get .loading).quiet = some 10 ∧
      ((run.setLink .yard { run.links.get .yard with ready := false }).links.get .yard).ready = false ∧
      asleep.working = false ∧
      Meets run .loading 0x10 (u8 1) (fun s => s.tablesOk = true ∧ 1 < 2) ∧
      Meets run .loading 0x10 (u8 7) (fun _ => 6 < 7 ∧ 7 < 256) ∧
      Meets run .loading 0x10 (u8 2) (fun s => s.tablesOk = true ∧ stationOf 2 = some .yard ∧
        Station.yard ≠ .loading) ∧
      Meets (heardFrom run .ramp4) .loading 0x10 (u8 6) (fun s => stationOf 6 = some .ramp4 ∧
        (s.stations.get .ramp4).present = true) := by decide

/-- A link whose queue has `n` frames and whose slots hold the kinds given. -/
def linkOf (n : Nat) (slots : List Slot) : Link :=
  { Link.atStart true with queue := List.replicate n coldModeFrame, slots := slots }

theorem witness_NoticesArePlacedAndReleased :
    (linkOf 15 []).queue.length < 16 ∧ (linkOf 15 []).slots = [] ∧ 16 ≤ (linkOf 16 []).queue.length ∧
      (∀ x ∈ (linkOf 16 []).slots, x.kind ≠ .mode) ∧
      (linkOf 15 [{ kind := .mode, content := [], merge := 255 }]).slots =
        [] ++ { kind := .mode, content := [], merge := 255 } :: [] ∧
      (linkOf 15 [{ kind := .mode, content := [], merge := 255 }]).slots ≠ [] ∧
      (linkOf 16 []).queue.length ≤ 16 ∧ (linkOf 16 []).mailbox = [] ∧
      ({ linkOf 0 [] with mailbox := [query] } : Link).mailbox ≠ [] := by decide

/-- R162: behind a request that leaves the mailbox empty with places free, the first notice finds the slots
held and is merged or joins them, all of them are released behind it, and the next notice joins the queue. -/
theorem test_release_follows_each_placement :
    let t := (held.send (.mode .run .resume)).send (.mode .recovery .warm)
    (t.links.get .ramp1).slots = [] ∧
      (t.links.get .ramp1).queue.map (fun f => (f.kind, f.payload)) =
        [(0xD0, 3 :: (Notice.mode .run .resume).content), (0xD1, [1]),
          (0xD0, 1 :: (Notice.mode .recovery .warm).content)] := by decide

theorem witness_ReadsReport_subscribe :
    Meets run .yard 0x55 (encNums (List.replicate 14 0xC5)) (fun s => s.tablesOk = true ∧
        13 < (List.replicate 14 0xC5).length) ∧
      Meets run .yard 0x55 (encNums [0xC5, 0xC0, 0xC5]) (fun s => s.tablesOk = true ∧
        0xC5 ∈ broadcastKinds.map noticeCode ∧ 0xC0 ∉ broadcastKinds.map noticeCode) ∧
      Meets run .yard 0x55 (encNums (broadcastKinds.map noticeCode)) (fun _ =>
        (broadcastKinds.map noticeCode).length = 13) := by decide

/-- R160: a directed kind and a repeat are refused at their positions. -/
theorem test_subscribe_refusals :
    replyTo run .yard 0x55 (encNums [0xC5, 0xC0, 0xC5]) (.subscribe .yard) =
        some (0x81, [0x55, 3, 1, 2]) ∧
      replyTo run .yard 0x55 (encNums [0xC5, 0xC6, 0xC5]) (.subscribe .yard) =
        some (0x81, [0x55, 3, 1, 3]) ∧
      replyTo run .yard 0x55 (encNums (List.replicate 14 0xC5)) (.subscribe .yard) =
        some (0x81, [0x55, 3, 1, 0]) := by decide

theorem witness_ReadsReport :
    Meets run .yard 0x50 (u8 1 ++ u8 0) (fun s => s.tablesOk = true ∧ s.planMode = true ∧
        laneNumberOk 1 = true ∧ (s.lanes.get 1).isSome = true) ∧
      Meets run .ramp4 0x50 (u8 48 ++ u8 6) (fun s => s.planMode = true ∧ laneNumberOk 48 = true ∧
        (s.lanes.get 48).isSome = true) ∧
      Meets run .loading 0x50 (u8 48 ++ u8 7) (fun s => (s.lanes.get 48).isSome = true) ∧
      Meets run .yard 0x51 (encBooking (nameOf 2)) (fun s => s.tablesOk = true ∧
        bookingOk (nameOf 2) = true ∧ s.findRecord (nameOf 2) = some (unitOf 2 .reserved)) ∧
      Meets run .yard 0x51 (encBooking (nameOf 1)) (fun s => s.findRecord (nameOf 1) = none ∧
        (s.findEntry (nameOf 1)).isSome = true) ∧
      Meets run .yard 0x51 (encBooking (nameOf 9)) (fun s => s.findRecord (nameOf 9) = none ∧
        s.findEntry (nameOf 9) = none) ∧
      Meets State.reset .loading 0x52 (u8 0) (fun s => s.tablesOk = true) ∧
      Meets run .loading 0x52 (u8 3) (fun s => s.tablesOk = true) ∧
      Meets run .ramp1 0x53 (u8 4) (fun s => s.tablesOk = true) ∧
      Meets run .ramp1 0x53 (u8 6) (fun s => s.tablesOk = true) ∧
      Meets run .yard 0x54 [] (fun s => s.tablesOk = true) ∧
      Meets run .yard 0x55 (encNums (broadcastKinds.map noticeCode)) (fun s => s.tablesOk = true ∧
        broadcastKinds.Nodup ∧ ∀ k ∈ broadcastKinds, k ∈ broadcastKinds) ∧
      Meets run .yard 0x55 (encNums []) (fun s => s.tablesOk = true) := by decide

theorem witness_ReadsReport_lists :
    Meets run .yard 0x51 (List.replicate 10 0) (fun s => s.tablesOk = true ∧
        decBooking (List.replicate 10 0) = none) ∧
      Meets run .yard 0x53 (u8 1) (fun s => s.tablesOk = true ∧ 1 ≤ s.movements.length) := by decide

/-- R157, R173: two reservations stand behind their count; a page beyond them holds none. -/
theorem test_read_state_counts_the_reservations :
    (replyTo run .yard 0x53 (u8 1) (.readState .yard)).map (fun r => (r.2.length, r.2.take 10)) =
        some (46, [0x53, 1, 0, 0, 0, 0, 2, 2, 1, 2]) ∧
      replyTo run .yard 0x53 (u8 2) (.readState .yard) = some (0x80, [0x53, 2, 0, 0, 0, 0, 2, 0]) := by
  decide

theorem witness_OutputsFollowTheState :
    run.modeOk = true ∧ run.working = true ∧ run.planMode = true ∧
      (run.lanes.get 2).map (·.inService) = some true ∧
      (run.lanes.get 4).map (fun l => (l.inService, run.displayed l)) = some (false, .check) ∧
      (run.lanes.get 48).map (fun l => (l.inService, run.displayed l)) = some (false, .openLane) ∧
      State.reset.modeOk = true ∧ State.reset.mode = .profile ∧ asleep.modeOk = true ∧
      asleep.mode = .powerDown ∧ run.lanes.get 47 = none ∧
      (run.fittedSection 2).map (fun c => (c.state, c.target)) = some (.moving, some .raised) ∧
      (run.fittedSection 1).map (·.state) = some .atPosition ∧ run.fittedSection 5 = none ∧
      (after .resetAsserted run).working = false ∧ (after .resetAsserted run).modeOk = true ∧
      (after .resetAsserted run).mode = .run ∧ (after (.supplyLoss false) run).working = false ∧
      (after (.supplyLoss false) run).modeOk = true := by decide

/-- R165: the reset input darkens the GREEN lamp of lane 2 and drops the move output of section 2. -/
theorem test_reset_input_drops_the_outputs :
    run.lampOutput 2 = .green ∧ run.moveOutput 2 = some .raised ∧
      (after .resetAsserted run).lampOutput 2 = .dark ∧ (after .resetAsserted run).moveOutput 2 = none := by
  decide

/-! Tests: values the spec works out, one step each -/

set_option maxRecDepth 4000 in
/-- R170: the CRC of the text 123456789. -/
theorem test_crc :
    crc16 [0x31, 0x32, 0x33, 0x34, 0x35, 0x36, 0x37, 0x38, 0x39] = 0x29B1 := by decide

/-- R165: a start with strap COLD. -/
theorem test_start_cold_is_reset : after (.start .cold 0) State.blank = State.reset := by decide

/-- Table 12-2, R171. -/
theorem test_request_codes :
    ((List.range 256).filter isRequestKind).length = 41 ∧ isRequestKind 0x16 = false ∧
      isRequestKind 0x56 = false := by decide

/-- R174: the identification codes. -/
theorem test_ident :
    (replyTo State.reset .yard 0x54 [] (.ident .yard)).map (fun r => (r.1, r.2.take 8)) =
      some (0x80, [0x54, 0x0A, 0x3E, 0x48, 0x16, 1, 2, 0]) := by decide

/-- R69: (-2 - 1 + 0 + 1) / 4 = -0.5 rounds away from zero. -/
theorem test_heel_rounds_away_from_zero : roundDiv (-2) 4 = -1 ∧ roundDiv 2 4 = 1 ∧ roundDiv 1 4 = 0 := by
  decide

/-- R103: TIMEOUT clamps. -/
theorem test_timeout_clamps :
    (after (.timeout .loading) (offered run .loading 0x0C (i16 (-5)))).timeout = 60 ∧
      (after (.timeout .loading) (offered run .loading 0x0C (u16 901))).timeout = 900 := by decide

/-- R132: the plan clock stops at its last value. -/
theorem test_clock_saturates :
    (after .clockAdvance { calm with clock := { now := 4294967295, cutoff := none, reached := false } }).clock.now =
      4294967295 := by decide

/-- R92, R93: G1 goes to the centred lane, its slot centre 25 dm from the closed end at 1200 running aft. -/
theorem test_arrive_assigns :
    replyTo roomy .ramp1 0x30 (encBooking (nameOf 7)) (.arrive .ramp1) =
      some (0x82, [0x30, 48, 0, 0, 0x04, 0x97, 0, 0, 0, 1]) := by decide

/-- R105: a LOAD expiry keeps the delta and leaves a check record. -/
theorem test_load_expiry_keeps_the_delta :
    (after (.loadExpiry 2) run).account.pPlus = 20000 ∧
      ((after (.loadExpiry 2) run).lanes.get 2).map (fun l => (l.entries, l.check.map (·.delta))) =
        some ([], some 10000) := by decide

/-- The running plan with nobody waiting, so that no pass adds anything. -/
def unhurried : State := { run with waiting := [] }

/-- R109: LASHED moves delta and mass from pending to confirmed. -/
theorem test_lashed_confirms :
    let t := after (.lashed .ramp1) (offered unhurried .ramp1 0x31 [])
    t.account.tc = 20000 ∧ t.account.pPlus = 10000 ∧
      (t.zones.get 1).map (fun z => (z.confirmed, z.pendingLoad)) = some (400, 100) := by decide

/-- R112: OFFLOADED takes the mass off zone and account. -/
theorem test_offloaded_confirms :
    let t := after (.offloaded .ramp1) (offered unhurried .ramp1 0x35 [])
    t.account.tc = 0 ∧ t.account.pMinus = -10000 ∧ (t.zones.get 1).map (·.confirmed) = some 200 ∧
      t.poolInUse = 4 := by decide

/-- R142: the last movement resolved beneath section 3 lets it move. -/
theorem test_backout_lets_the_section_move :
    let t := after (.backout .ramp1) (offered unhurried .ramp1 0x32 [])
    (t.sections.get 3).map (fun c => (c.state, c.timer)) = some (.moving, 240) ∧
      t.moveOutput 3 = some .lowered := by decide

/-- R161: a merged notice counts up to 255 and stays. -/
theorem test_merge_saturates :
    ((linkOf 16 [{ kind := .mode, content := [9], merge := 255 }]).place .mode [1, 1]).slots =
      [{ kind := .mode, content := [1, 1], merge := 255 }] := by decide

/-- R168: POWER_FAIL stops the moving section and darkens every lamp. -/
theorem test_power_fail :
    let t := after .powerFail run
    (t.sections.get 2).map (fun c => (c.state, c.cause)) = some (.fault, some .powerDown) ∧
      t.lampOutput 2 = .dark ∧ run.lampOutput 2 = .green := by decide

/-- R169: a loss that cuts off an update makes the next warm start a cold one. -/
theorem test_cut_off_image_starts_cold :
    (after (.start .warm 0) (after (.supplyLoss true) run)).control.work = .profile ∧
      (after (.start .warm 0) (after (.supplyLoss false) run)).control.work = .recovery := by decide

/-- R72: a CLEAR_PLAN leaves no divergence counted. -/
theorem test_clear_plan_ends_the_count :
    (after (.clearPlan .loading)
      (offered { calm with monitor := { watching with divergence := 4 } } .loading 0x07 [])).monitor =
        { watching with divergence := 0 } := by decide

/-- R140: a MOVE refused AUTHORITY carries section 1, AT_POSITION at LOWERED, without target or held fault. -/
theorem test_move_refusal_carries_the_section :
    replyTo run .yard 0x13 (u8 1 ++ u8 1) (.move .yard) = some (0x81, [0x13, 1, 1, 3, 0, 2]) := by decide

/-- R107, Table 6-3: a LASHED for lane 2 under another booking names its LOAD reservation. -/
theorem test_lashed_mismatch :
    replyTo run .ramp1 0x31 (u8 2 ++ encBooking (nameOf 1)) (.lashed .ramp1) =
      some (0x81, [0x31, 14, 1, 1] ++ encBooking (nameOf 2)) := by decide

/-- Tables 6-3, 6-4 and 2-3: a KEEP or a BACKOUT for a check record is refused NO_MOVEMENT with every field of
it: kind, booking, ramp 1, delta, zone 1, offset 0, and the unit of a LOAD one. -/
theorem test_keep_shows_the_check_record :
    replyTo run .ramp2 0x36 (encBooking (nameOf 5)) (.keep .ramp2) =
        some (0x81, [0x36, 13, 2] ++ encBooking (nameOf 5) ++ [1, 0, 0, 0x27, 0x10, 1, 0, 0]) ∧
      replyTo run .ramp2 0x32 (u8 4 ++ encBooking (nameOf 4)) (.backout .ramp2) =
        some (0x81, [0x32, 13, 1] ++ encBooking (nameOf 4) ++
          [1, 0xFF, 0xFF, 0xD8, 0xF0, 1, 0, 0, 1, 0, 50, 1, 44, 0, 100, 0, 0, 3]) := by decide

/-- R148, R150: a section whose input fell in POWER_DOWN faults at the resumption, and the lane lamp
follows. -/
theorem test_resumption_faults_a_section :
    (((after .powerRestored { asleep with inputs := [(1, raisedOnly), (3, raisedOnly), (6, lowered)] }).sections.get
      1).map fun c => (c.state, c.cause)) = some (.fault, some .inputChanged) := by decide

/-- R126, R128: a unit for which a pass finds a lane is reserved; the sixteenth failure excludes it. -/
theorem test_pass_reserves_and_excludes :
    ((roomy.passElement (hopeful 3)).1.lanes.get 48).map (fun l => l.entries.map (·.booking)) =
        some [nameOf 7] ∧
      ((barred.passElement (hopeful 15)).1.findRecord (nameOf 7)).map (·.state) = some .excluded := by
  decide

/-- The model's one stop. -/
theorem test_no_such_terminal : exec (.sectionInputChange 7 lowered) run = .fault (.noSuchTerminal 7) :=
  rfl

end Sys2Proof.Tests
end

/-! WITHDRAW (spec/03 R48, spec/07 R130): a well-formed booking comes back from its ten bytes, one record
leaves a register that holds its bookings once, and what the handler answers in each case. Whatever it
answers, lanes, zones and account stay as they are, so the event is a quiet one and ends with its reply and
its notice. -/

namespace Sys2Proof.Machine

/-! The booking field of ten bytes (R46) -/

theorem bookingChar_ne_zero {c : Byte} (h : bookingChar c = true) : c ≠ 0 := by
  rintro rfl
  exact absurd h (by decide)

theorem bookingOk_iff (b : Booking) :
    bookingOk b = true ↔ 1 ≤ b.length ∧ b.length ≤ 10 ∧ ∀ c ∈ b, bookingChar c = true := by
  simp [bookingOk, and_assoc]

theorem encBooking_length {b : Booking} (h : bookingOk b = true) : (encBooking b).length = 10 := by
  obtain ⟨-, short, -⟩ := (bookingOk_iff b).mp h
  simp only [encBooking, List.length_append, List.length_replicate]
  omega

/-- The characters end at the first byte of 0: no character of a booking is one. -/
theorem takeWhile_encBooking {b : Booking} (h : bookingOk b = true) :
    (encBooking b).takeWhile (fun c => c != 0) = b := by
  obtain ⟨-, -, chars⟩ := (bookingOk_iff b).mp h
  have nonzero : ∀ c ∈ b, (c != 0) = true := fun c hc => by
    simpa using bookingChar_ne_zero (chars c hc)
  unfold encBooking
  rw [List.takeWhile_append_of_pos nonzero]
  simp

@[simp] theorem decBooking_encBooking {b : Booking} (h : bookingOk b = true) :
    decBooking (encBooking b) = some b := by
  have padding : (encBooking b).drop b.length = List.replicate (10 - b.length) 0 := by
    simp [encBooking]
  simp only [decBooking, takeWhile_encBooking h, h, padding]
  simp

/-! Removing a record -/

theorem State.findRecord_some {s : State} {b : Booking} {r : UnitRecord} (h : s.findRecord b = some r) :
    r ∈ s.register ∧ r.booking = b :=
  ⟨List.mem_of_find?_eq_some h, by simpa using List.find?_some h⟩

/-- A register that holds each booking once (R40) loses one record with it. -/
theorem State.removeRecord_register_length {s : State} {b : Booking} {r : UnitRecord}
    (h : s.findRecord b = some r) (once : (s.register.map (·.booking)).Nodup) :
    (s.removeRecord b).register.length + 1 = s.register.length := by
  obtain ⟨hr, rfl⟩ := State.findRecord_some h
  have one : s.register.countP (fun q => decide (q.booking = r.booking)) = 1 := by
    have := List.count_eq_one_of_mem once (List.mem_map_of_mem hr)
    simpa [List.count, List.countP_map, Function.comp_def, beq_eq_decide] using this
  have parts := List.length_eq_countP_add_countP (fun q => decide (q.booking = r.booking)) (l := s.register)
  simp only [decide_eq_true_eq, ← ne_eq] at parts
  simp only [State.removeRecord, ← List.countP_eq_length_filter]
  omega

/-- A record less, and perhaps a waiting element less: nothing that lanes, account or mode depend on. -/
theorem State.removeRecord_quiet (s : State) (b : Booking) : QuietFrom s (s.removeRecord b) :=
  ⟨rfl, rfl, rfl, rfl, rfl, rfl, rfl⟩

theorem State.dropWaiting_removeRecord_quiet (s : State) (b : Booking) :
    QuietFrom s ((s.dropWaiting b).removeRecord b) :=
  ⟨rfl, rfl, rfl, rfl, rfl, rfl, rfl⟩

/-! What the handler answers -/

theorem handleWithdraw_of_ne_yard {st : Station} (h : st ≠ .yard) (p : List Byte) (s : State) :
    handleWithdraw st p s = refuse s .authority := by
  simp [handleWithdraw, h]

theorem handleWithdraw_of_malformed {p : List Byte} (len : p.length = 10) (h : decBooking p = none)
    (s : State) : handleWithdraw .yard p s = refuseAt s 1 := by
  simp [handleWithdraw, len, h]

section
variable {s : State} {b : Booking} {r : UnitRecord}

theorem handleWithdraw_of_announced_or_excluded (hb : bookingOk b = true) (hr : s.findRecord b = some r)
    (h : r.state = .announced ∨ r.state = .excluded) :
    handleWithdraw .yard (encBooking b) s =
      acknowledge (s.removeRecord b) (u8 (unitStateCode r.state)) := by
  obtain h | h := h <;> simp [handleWithdraw, encBooking_length hb, hb, hr, h]

theorem handleWithdraw_of_waiting (hb : bookingOk b = true) (hr : s.findRecord b = some r)
    (h : r.state = .waiting) {pos : Nat} {w : Waiting} (hw : s.waitingAt b = some (pos, w)) :
    handleWithdraw .yard (encBooking b) s =
      { state := (s.dropWaiting b).removeRecord b, reply := .ack (u8 2),
        head := [.withdrawn w.ramp b pos w.retries] } := by
  simp [handleWithdraw, encBooking_length hb, hb, hr, h, hw, unitStateCode]

theorem handleWithdraw_of_reserved_or_check (hb : bookingOk b = true) (hr : s.findRecord b = some r)
    (h : r.state = .reserved ∨ r.state = .check) :
    handleWithdraw .yard (encBooking b) s = refuse s .inUse := by
  obtain h | h := h <;> simp [handleWithdraw, encBooking_length hb, hb, hr, h]

theorem handleWithdraw_of_no_record (hb : bookingOk b = true) (hr : s.findRecord b = none) :
    handleWithdraw .yard (encBooking b) s =
      refuse s (if (s.findEntry b).isSome then .inUse else .unknown) := by
  by_cases he : (s.findEntry b).isSome = true <;>
    simp [handleWithdraw, encBooking_length hb, hb, hr, he]

end

/-! What the command does -/

theorem exec_withdraw (st : Station) (s : State) :
    exec (.withdraw st) s = s.takeKind st 0x21 handleWithdraw := rfl

section
variable {s : State} {f : Frame} {b : Booking} {r : UnitRecord}

theorem exec_withdraw_of_announced_or_excluded (hb : bookingOk b = true)
    (o : s.Offers .yard 0x21 (encBooking b) f) (ok : s.tablesOk = true) (hr : s.findRecord b = some r)
    (h : r.state = .announced ∨ r.state = .excluded) :
    exec (.withdraw .yard) s =
      .next (((s.popMailbox .yard).removeRecord b).concluded .yard
        (replyFrame f (.ack (u8 (unitStateCode r.state))))) := by
  rw [exec_withdraw]
  exact State.takeKind_quiet o _
    (handleWithdraw_of_announced_or_excluded (s := s.popMailbox .yard) hb hr h) ok
    (State.removeRecord_quiet _ b)

theorem exec_withdraw_of_waiting (hb : bookingOk b = true) (o : s.Offers .yard 0x21 (encBooking b) f)
    (ok : s.tablesOk = true) (hr : s.findRecord b = some r) (h : r.state = .waiting) {pos : Nat}
    {w : Waiting} (hw : s.waitingAt b = some (pos, w)) :
    exec (.withdraw .yard) s =
      .next ((((s.popMailbox .yard).dropWaiting b).removeRecord b).concludedWith .yard
        (replyFrame f (.ack (u8 2))) [.withdrawn w.ramp b pos w.retries]) := by
  rw [exec_withdraw]
  exact State.takeKind_quiet o _ (handleWithdraw_of_waiting (s := s.popMailbox .yard) hb hr h hw) ok
    (State.dropWaiting_removeRecord_quiet _ b)

end

/-- Settles O37: each ending of the handler is a quiet event, and its reply, its notice and what leaves the
register and the Waiting List are those the handler answers. -/
theorem withdrawnUnitsLeave : Obligations.WithdrawnUnitsLeave := by
  unfold Obligations.WithdrawnUnitsLeave
  refine ⟨fun st s f p o ok => ⟨fun hst => ?authority, ?malformed⟩,
    fun s f b hb o ok => ⟨fun r hr => ⟨?oneLess, ?deleted, ?waiting, ?inUse⟩, fun hr => ?unheld⟩⟩
  case authority =>
    exact .of_handle (exec_withdraw st s) o ok (handleWithdraw_of_ne_yard hst p _)
  case malformed =>
    rintro rfl len h
    exact .of_handle (exec_withdraw _ s) o ok (handleWithdraw_of_malformed len h _)
  case oneLess => exact State.removeRecord_register_length hr
  case deleted => exact exec_withdraw_of_announced_or_excluded hb o ok hr
  case waiting =>
    intro h pos w hw
    exact exec_withdraw_of_waiting hb o ok hr h hw
  case inUse =>
    intro h
    exact .of_handle (exec_withdraw _ s) o ok
      (handleWithdraw_of_reserved_or_check (s := s.popMailbox .yard) hb hr h)
  case unheld =>
    exact .of_handle (exec_withdraw _ s) o ok
      (handleWithdraw_of_no_record (s := s.popMailbox .yard) hb hr)

end Sys2Proof.Machine

/-! CUTOFF (spec/07 R134): what the handler answers in each case of the rule. It touches the plan clock alone,
so the event is a quiet one and ends with its reply. -/

namespace Sys2Proof.Machine

/-- The plan clock with a cut-off time, or without one, and the condition cleared (R134). -/
def State.withCutoff (s : State) (c : Option Nat) : State :=
  { s with clock := { now := s.clock.now, cutoff := c, reached := false } }

/-- Lanes, account and mode do not depend on the plan clock. -/
theorem State.withCutoff_quiet (s : State) (c : Option Nat) : QuietFrom s (s.withCutoff c) :=
  ⟨rfl, rfl, rfl, rfl, rfl, rfl, rfl⟩

/-! What the handler answers -/

theorem handleCutoff_of_ne_loading {st : Station} (h : st ≠ .loading) (p : List Byte) (s : State) :
    handleCutoff st p s = refuse s .authority := by
  simp [handleCutoff, h]

theorem handleCutoff_of_profile {s : State} (h : s.mode = .profile) (p : List Byte) :
    handleCutoff .loading p s = refuse s .mode := by
  simp [handleCutoff, h]

section
variable {s : State} {v : Nat}

theorem handleCutoff_of_zero (hm : s.mode ≠ .profile) :
    handleCutoff .loading (u32 0) s =
      acknowledge (s.withCutoff none) (u32 0 ++ u32 s.clock.now ++ u8 2) := by
  have value : natOf (u32 0) = 0 := natOf_u32 (by decide)
  simp [handleCutoff, hm, value, State.withCutoff, flagCode]

theorem handleCutoff_of_past (hm : s.mode ≠ .profile) (hv : v ≤ 4294967295) (pos : 0 < v)
    (past : v ≤ s.clock.now) :
    handleCutoff .loading (u32 v) s = refuse s .timePast (u32 s.clock.now) := by
  have value : natOf (u32 v) = v := natOf_u32 (by omega)
  simp [handleCutoff, hm, value, pos.ne', past]

theorem handleCutoff_of_ahead (hm : s.mode ≠ .profile) (hv : v ≤ 4294967295) (ahead : s.clock.now < v) :
    handleCutoff .loading (u32 v) s =
      acknowledge (s.withCutoff (some v)) (u32 v ++ u32 s.clock.now ++ u8 2) := by
  have value : natOf (u32 v) = v := natOf_u32 (by omega)
  have pos : v ≠ 0 := by omega
  simp [handleCutoff, hm, value, pos, ahead.not_ge, State.withCutoff, flagCode]

end

/-! What the command does -/

theorem exec_cutoff (st : Station) (s : State) :
    exec (.cutoff st) s = s.takeKind st 0x0D handleCutoff := rfl

/-- A CUTOFF whose handler sets or clears the time acknowledges it, and that is all. -/
theorem exec_cutoff_of_acknowledge {s : State} {st : Station} {p contents : List Byte} {f : Frame}
    {c : Option Nat} (o : s.Offers st 0x0D p f) (ok : s.tablesOk = true)
    (h : handleCutoff st p (s.popMailbox st) =
      acknowledge ((s.popMailbox st).withCutoff c) contents) :
    exec (.cutoff st) s =
      .next (((s.popMailbox st).withCutoff c).concluded st (replyFrame f (.ack contents))) := by
  rw [exec_cutoff]
  exact State.takeKind_quiet o _ h ok (State.withCutoff_quiet _ c)

/-- Settles O49: the cases of R134 are those of the handler, and whatever it answers, the event is a quiet
one. -/
theorem cutoffFollowsItsRule : Obligations.CutoffFollowsItsRule := by
  unfold Obligations.CutoffFollowsItsRule
  intro st s f v hv o ok
  refine ⟨?authority, ?mode, ?planned⟩
  case authority =>
    intro hst
    exact .of_handle (exec_cutoff st s) o ok (handleCutoff_of_ne_loading hst _ _)
  case mode =>
    rintro rfl hm
    exact .of_handle (exec_cutoff _ s) o ok
      (handleCutoff_of_profile (s := s.popMailbox .loading) hm _)
  case planned =>
    rintro rfl plan
    have hm : (s.popMailbox .loading).mode ≠ .profile := State.ne_profile_of_planMode plan
    refine ⟨?clear, ?past, ?ahead⟩
    case clear =>
      rintro rfl
      exact exec_cutoff_of_acknowledge o ok (handleCutoff_of_zero hm)
    case past =>
      intro pos past
      exact .of_handle (exec_cutoff _ s) o ok
        (handleCutoff_of_past (s := s.popMailbox .loading) hm hv pos past)
    case ahead =>
      intro ahead
      exact exec_cutoff_of_acknowledge o ok
        (handleCutoff_of_ahead (s := s.popMailbox .loading) hm hv ahead)

end Sys2Proof.Machine

/-! What a step can do. Every command's effect is a chain of a few kinds of change (`Change`), of image writes,
of starts and of losses of supply (`Move`). The invariants of the obligations are proved one change at a time
from here on, and no proof of an invariant opens a handler again. -/

namespace Sys2Proof.Machine

/-! The vocabulary of a change -/

/-- Mailbox, queue and slots within their capacities, one slot a kind: what placing, taking, releasing and
emptying keep one by one (`Link.ok` without its law of prompt release). -/
def Link.bounded (l : Link) : Prop :=
  l.mailbox.length ≤ Config.mailboxSize ∧ l.queue.length ≤ Config.queueSize ∧
    (l.slots.map (·.kind)).Nodup ∧ ∀ x ∈ l.slots, 1 ≤ x.merge ∧ x.merge ≤ 255

/-- A station's quiet timer stands within its limit. -/
def StationRow.quietOk (r : StationRow) : Prop := r.quiet.getD 0 ≤ Config.quietLimit

/-- `b` is lane `a` but for closed flag, level, revision and current clearance. -/
structure Lane.Resettled (a b : Lane) : Prop where
  profile : b.profile = a.profile
  entries : b.entries = a.entries
  check : b.check = a.check
  mass : b.mass = a.mass
  level : a.level ≤ 7 → b.level ≤ 7

/-- The lanes under the same numbers, each resettled at most. -/
def lanesResettled (a b : Table Lane) : Prop :=
  List.Forall₂ (fun p q => p.1 = q.1 ∧ p.2.Resettled q.2) a b

/-- A section may change from `c` to `d` in a sealed profile: it stays coherent, and gives up its position
only where `free` says that no affected lane carries a pending movement. -/
structure Sect.Steps (free : Prop) (c d : Sect) : Prop where
  ok : c.ok = true → c.originOk = true → d.ok = true ∧ d.originOk = true
  holds : d.holds = true ∨ c.holds = false ∨ free

/-- The reservation `r` is one that OFFLOADED and KEEP may resolve (Table 6-4). -/
def State.Discharging (s : State) (r : Reservation) : Prop :=
  r.kind = .discharge ∨ ∃ l e, (r.lane, l) ∈ s.lanes ∧ e ∈ l.entries ∧ e.state = .leaving

/-- The reservation of an UNLASH (R99). -/
def State.releaseReservation (s : State) (ramp : Nat) (f : Found) : Reservation where
  kind := .discharge
  lane := f.laneNo
  ramp := ramp
  booking := f.entry.booking
  mass := f.entry.unit.mass
  delta := -(f.entry.unit.mass * f.lane.profile.arm)
  zone := s.slotZone f.lane.profile f.entry.offset f.entry.unit.length
  offset := f.entry.offset
  seq := s.seqNext
  seconds := s.timeout

/-- The checks of UNLASH against lane, Movement Table and section that a discharge admission has passed
(R97, R98). -/
structure State.Releasable (s : State) (row : Ramp) (b : Booking) (f : Found) : Prop where
  found : s.findEntry b = some f
  stowed : f.entry.state = .stowed
  shown : s.displayed f.lane ≠ .check ∧ s.displayed f.lane ≠ .moving ∧ s.displayed f.lane ≠ .away
  idle : f.lane.inService = false
  last : f.lane.entries.length ≤ f.position
  room : s.movements.length < Config.reservations

/-- One element of a re-examination pass (R126, R127). -/
inductive Examined (s : State) (w : Waiting) : State → Prop
  | skipped : Examined s w s
  | retried (rs : Reasons) (h : w.retries + 1 < Config.retryLimit) :
    Examined s w (s.setWaiting { w with retries := w.retries + 1, reasons := rs })
  | excluded : Examined s w ((s.dropWaiting w.booking).setUnitState w.booking .excluded)
  | admitted (row : Ramp) (unit : UnitRecord) (n : Nat) (l : Lane) (rec : s.findRecord w.booking = some unit)
    (fits : s.evaluate row unit.body = .chosen n) (lane : s.lanes.get n = some l) :
    Examined s w (((s.dropWaiting w.booking).reserveLoad w.ramp w.booking unit.body
      (s.slotOf n l unit.body)).onLane n Lane.revise)

/-- One change of the state, made by an event before its image is written. -/
inductive Change : State → State → Prop
  | links (s : State) (ls : PerStation Link) (h : ∀ st, (s.links.get st).bounded → (ls.get st).bounded) :
    Change s { s with links := ls }
  | stations (s : State) (p : PerStation StationRow)
    (h : ∀ st, (s.stations.get st).quietOk → (p.get st).quietOk) : Change s { s with stations := p }
  | control (s : State) (c : Control) (h : c.work = s.control.work) : Change s { s with control := c }
  | run (s : State) (h : s.mode = .recovery) :
    Change s { s with control := { s.control with work := .run } }
  | inputs (s : State) (t : Table Inputs)
    (h : s.inputs.wf Config.sectionCount = true → t.wf Config.sectionCount = true) :
    Change s { s with inputs := t }
  | defLanes (s : State) (t : Table Lane) (hm : s.mode = .profile)
    (wf : s.lanes.wf Config.laneCount = true → t.wf Config.laneCount = true)
    (new : ∀ q ∈ t, q ∈ s.lanes ∨ ∃ p, q.2 = newLane p) : Change s { s with lanes := t }
  | defZones (s : State) (t : Table Zone) (hm : s.mode = .profile)
    (wf : s.zones.wf Config.zoneCount = true → t.wf Config.zoneCount = true)
    (new : ∀ q ∈ t, q ∈ s.zones ∨ q.2.confirmed = 0 ∧ q.2.pendingLoad = 0) : Change s { s with zones := t }
  | defRamps (s : State) (t : Table Ramp) (hm : s.mode = .profile)
    (wf : s.ramps.wf Config.rampCount = true → t.wf Config.rampCount = true)
    (new : ∀ q ∈ t, q ∈ s.ramps ∨ ∃ reach, q.2 = newRamp reach) : Change s { s with ramps := t }
  | defSections (s : State) (t : Table Sect) (hm : s.mode = .profile)
    (wf : s.sections.wf Config.sectionCount = true → t.wf Config.sectionCount = true) :
    Change s { s with sections := t }
  | defShip (s : State) (gap seg : Nat) (hm : s.mode = .profile) :
    Change s { s with gap := gap, segregation := seg }
  | sealPlan (s : State) (hm : s.mode = .profile) (h : sealFailure s = none) : Change s (sealed s)
  | erase (s : State) (hm : s.mode = .profile) : Change s s.eraseProfile
  | clear (s : State) (hm : s.planMode = true) (bare : ∀ p ∈ s.lanes, p.2.occupied = false)
    (idle : s.movements = []) : Change s s.clearPlan
  | account (s : State) (a : Account)
    (same : a.tc = s.account.tc ∧ a.pPlus = s.account.pPlus ∧ a.pMinus = s.account.pMinus)
    (range : bandInRange s.account.kp s.account.ks s.account.h = true → bandInRange a.kp a.ks a.h = true) :
    Change s { s with account := a }
  | monitor (s : State) (m : Monitor) (ok : s.monitor.ok = true → m.ok = true)
    (range : heelModelInRange s.monitor.kh s.monitor.offset s.monitor.tolerance = true →
      heelModelInRange m.kh m.offset m.tolerance = true)
    (still : s.monitor.divergence = 0 → m.divergence = 0 ∨ s.planMode = true) :
    Change s { s with monitor := m }
  | timeout (s : State) (v : Nat) (lo : 60 ≤ v) (hi : v ≤ 900) : Change s { s with timeout := v }
  | clock (s : State) (c : PlanClock) (hm : s.planMode = true)
    (reached : c.reached = true → s.clock.reached = true)
    (now : s.clock.now ≤ Config.maxTime → c.now ≤ Config.maxTime) : Change s { s with clock := c }
  | shutOut (s : State) (hm : s.planMode = true) :
    Change s { s.shutOutAll with clock := { s.clock with reached := true } }
  | ramp (s : State) (r : Nat) (f : Ramp → Ramp) (h : ∀ q, (f q).count = q.count)
    (mask : ∀ q, q.mask ≤ 7 → (f q).mask ≤ 7) : Change s (s.onRamp r f)
  | lanes (s : State) (t : Table Lane) (h : lanesResettled s.lanes t) : Change s { s with lanes := t }
  | sect (s : State) (n : Nat) (f : Sect → Sect)
    (h : ∀ c, s.sections.get n = some c → c.Steps (s.pendingLanes n = []) (f c)) :
    Change s (s.onSection n f)
  | sects (s : State) (f : Sect → Sect) (h : ∀ c : Sect, c.Steps False (f c)) :
    Change s { s with sections := s.sections.mapAll f }
  | aged (s : State) : Change s { s with movements := s.movements.map Reservation.second }
  | announce (s : State) (u : UnitRecord) (st : u.state = .announced) (free : s.findEntry u.booking = none)
    (old : ∀ r, s.findRecord u.booking = some r → r.state = .announced ∨ r.state = .excluded)
    (room : s.findRecord u.booking = none → s.register.length < Config.registerSize) :
    Change s (s.putRecord u)
  | reannounce (s : State) (b : Booking) (h : ∃ r, s.findRecord b = some r ∧ r.state = .excluded) :
    Change s (s.setUnitState b .announced)
  | remove (s : State) (b : Booking)
    (h : ∃ r, s.findRecord b = some r ∧ (r.state = .announced ∨ r.state = .excluded)) :
    Change s (s.removeRecord b)
  | withdraw (s : State) (b : Booking) (h : ∃ r, s.findRecord b = some r ∧ r.state = .waiting) :
    Change s ((s.dropWaiting b).removeRecord b)
  | sendBack (s : State) (b : Booking) (h : ∃ w ∈ s.waiting, w.booking = b) :
    Change s ((s.dropWaiting b).setUnitState b .announced)
  | wait (s : State) (w : Waiting) (hm : s.mode = .run) (open_ : s.clock.reached = false)
    (rec : ∃ r, s.findRecord w.booking = some r ∧ r.state = .announced)
    (room : s.waiting.length < Config.waitingSize) (first : w.retries = 0) :
    Change s { s.setUnitState w.booking .waiting with waiting := s.waiting ++ [w] }
  | reserve (s : State) (ramp : Nat) (row : Ramp) (unit : UnitRecord) (n : Nat) (l : Lane)
    (hm : s.mode = .run) (rec : s.findRecord unit.booking = some unit) (st : unit.state = .announced)
    (fits : s.evaluate row unit.body = .chosen n) (lane : s.lanes.get n = some l) :
    Change s (s.reserveLoad ramp unit.booking unit.body (s.slotOf n l unit.body))
  | pass (s : State) (h : s.passAllowed = true) : Change s s.runPass.1
  | stow (s : State) (r : Reservation) (hr : r ∈ s.movements) (hk : r.kind = .load) :
    Change s (((s.endReservation r).opStow r.lane r.delta r.zone).removeRecord r.booking)
  | backOut (s : State) (r : Reservation) (hr : r ∈ s.movements) (hk : r.kind = .load) :
    Change s (((s.endReservation r).opBackOut r.lane r.delta r.zone).setUnitState r.booking .announced)
  | offload (s : State) (r : Reservation) (hr : r ∈ s.movements) (hk : s.Discharging r) :
    Change s ((s.endReservation r).opOffload r.lane r.delta r.zone)
  | keep (s : State) (r : Reservation) (hr : r ∈ s.movements) (hk : s.Discharging r) :
    Change s ((s.endReservation r).opKeep r.lane r.delta)
  | release (s : State) (ramp : Nat) (row : Ramp) (b : Booking) (f : Found) (hm : s.mode = .run)
    (h : s.Releasable row b f) :
    Change s ((s.opRelease f.laneNo (-(f.entry.unit.mass * f.lane.profile.arm))).addReservation
      (s.releaseReservation ramp f))
  | lapseLoad (s : State) (r : Reservation) (hr : r ∈ s.movements) (hk : r.kind = .load) :
    Change s (((s.endReservation r).opLapseLoad r.lane r.ramp r.delta r.zone).setUnitState r.booking .check)
  | lapseDischarge (s : State) (r : Reservation) (hr : r ∈ s.movements) (hk : r.kind = .discharge) :
    Change s ((s.endReservation r).opLapseDischarge r.lane r.ramp r.delta r.zone)
  | stowLate (s : State) (n : Nat) (l : Lane) (c : CheckRecord) (u : UnitBody)
    (lane : s.lanes.get n = some l) (check : l.check = some c) (unit : c.content = .load u)
    (fits : c.offset + u.length ≤ l.profile.length) :
    Change s ((s.opStowLate n c u).removeRecord c.booking)
  | offloadLate (s : State) (b : Booking) (f : Found) (c : CheckRecord) (found : s.findEntry b = some f)
    (stowed : f.entry.state = .stowed) (check : f.lane.check = some c) (kind : c.content = .discharge)
    (booking : c.booking = b) (last : f.position = f.lane.entries.length) :
    Change s (s.opOffloadLate f.laneNo c)
  | dropLoad (s : State) (n : Nat) (l : Lane) (c : CheckRecord) (u : UnitBody)
    (lane : s.lanes.get n = some l) (check : l.check = some c) (unit : c.content = .load u) :
    Change s ((s.opDropLoadCheck n c u).setUnitState c.booking .announced)
  | dropDischarge (s : State) (n : Nat) (l : Lane) (c : CheckRecord)
    (lane : s.lanes.get n = some l) (check : l.check = some c) (kind : c.content = .discharge) :
    Change s (s.opDropDischargeCheck n c)

/-- A chain of changes. -/
abbrev Changes : State → State → Prop := Relation.ReflTransGen Change

theorem Changes.of {s t : State} (h : Change s t) : Changes s t := .single h

/-- What is left without supply: the image alone, its word spoiled where an update was cut off (R168). -/
def State.withoutSupply (s : State) (cutOff : Bool) : State :=
  { s.emptied 0 with
    control := { (s.emptied 0).control with supplied := false, resetInput := s.control.resetInput }
    store := { image := s.store.image, intact := s.store.intact && !cutOff } }

/-- A change, an image write, a start before its notice, or a loss of supply. -/
inductive Move : State → State → Prop
  | change {s t : State} (h : Change s t) : Move s t
  | commit (s : State) : Move s s.commit
  | start (s : State) (strap : StartStrap) (rates : BitVec 3) : Move s (s.started strap rates).1
  | loss (s : State) (cutOff : Bool) : Move s (s.withoutSupply cutOff)

abbrev Moves : State → State → Prop := Relation.ReflTransGen Move

theorem Changes.moves {s t : State} (h : Changes s t) : Moves s t :=
  Relation.ReflTransGen.mono (fun _ _ => Move.change) _ _ h

theorem Changes.keeps {I : State → Prop} (step : ∀ {s t}, Change s t → I s → I t) {s t : State}
    (h : Changes s t) (hs : I s) : I t := by
  induction h with
  | refl => exact hs
  | tail _ one ih => exact step one ih

theorem Moves.keeps {I : State → Prop} (step : ∀ {s t}, Move s t → I s → I t) {s t : State}
    (h : Moves s t) (hs : I s) : I t := by
  induction h with
  | refl => exact hs
  | tail _ one ih => exact step one ih

/-! Tables of lanes that keep what stands in them -/

theorem Lane.Resettled.refl (a : Lane) : a.Resettled a := ⟨rfl, rfl, rfl, rfl, id⟩

theorem lanesResettled_map (t : Table Lane) (f : Nat × Lane → Nat × Lane)
    (h : ∀ p ∈ t, (f p).1 = p.1 ∧ p.2.Resettled (f p).2) : lanesResettled t (t.map f) := by
  unfold lanesResettled
  rw [List.forall₂_map_right_iff, List.forall₂_same]
  exact fun p hp => ⟨(h p hp).1.symm, (h p hp).2⟩

theorem lanesResettled_modify (t : Table Lane) (n : Nat) (f : Lane → Lane)
    (h : ∀ l : Lane, l.Resettled (f l)) : lanesResettled t (t.modify n f) :=
  lanesResettled_map t _ fun p _ => by
    by_cases hp : p.1 = n
    · simpa [hp] using h p.2
    · simpa [hp] using Lane.Resettled.refl p.2

theorem lanesResettled_mapAll (t : Table Lane) (f : Lane → Lane)
    (h : ∀ l : Lane, l.Resettled (f l)) : lanesResettled t (t.mapAll f) :=
  lanesResettled_map t _ fun p _ => ⟨rfl, h p.2⟩

theorem Lane.revise_resettled (l : Lane) : l.Resettled l.revise := ⟨rfl, rfl, rfl, rfl, id⟩

theorem State.onLane_changes (s : State) (n : Nat) (f : Lane → Lane) (h : ∀ l : Lane, l.Resettled (f l)) :
    Changes s (s.onLane n f) :=
  .of (.lanes s _ (lanesResettled_modify s.lanes n f h))

theorem State.setClearances_changes (s : State) (n : Nat) (p : Position) :
    Changes s (s.setClearances n p) := by
  unfold State.setClearances
  split
  · exact .of (.lanes s _ (lanesResettled_mapAll _ _ fun l => by
      split
      · exact ⟨rfl, rfl, rfl, rfl, id⟩
      · exact .refl l))
  · exact .refl

/-! Links and stations -/

theorem PerStation.set_keeps {α : Type} {P : α → Prop} (p : PerStation α) (st : Station) (a : α)
    (h : P (p.get st) → P a) (o : Station) : P (p.get o) → P ((p.set st a).get o) := by
  rw [PerStation.get_set]
  split
  · rename_i e
    exact e ▸ h
  · exact id

theorem State.setLink_changes (s : State) (st : Station) (l : Link)
    (h : (s.links.get st).bounded → l.bounded) : Changes s (s.setLink st l) :=
  .of (.links s _ (s.links.set_keeps st l h))

theorem State.setStation_changes (s : State) (st : Station) (r : StationRow)
    (h : (s.stations.get st).quietOk → r.quietOk) : Changes s (s.setStation st r) :=
  .of (.stations s _ (s.stations.set_keeps st r h))

theorem State.popMailbox_changes (s : State) (st : Station) : Changes s (s.popMailbox st) :=
  s.setLink_changes st _ fun ⟨hm, hq, hs⟩ => ⟨by simp; omega, hq, hs⟩

theorem State.reply_changes (s : State) (st : Station) (f : Frame)
    (h : (s.links.get st).queue.length < Config.queueSize) : Changes s (s.reply st f) :=
  s.setLink_changes st _ fun ⟨hm, _, hs⟩ => ⟨hm, by simp; omega, hs⟩

theorem Link.release_bounded {l : Link} (h : l.bounded) : l.release.bounded := by
  obtain ⟨hm, hq, hn, hs⟩ := h
  refine ⟨by rw [l.release_grown.mailbox]; exact hm, l.release_queue_length hq, ?_⟩
  unfold Link.release
  split
  · have less := (releaseInto_suffix l.queue l.slots).sublist
    exact ⟨(less.map _).nodup hn, fun x hx => hs x (less.subset hx)⟩
  · exact ⟨hn, hs⟩

theorem mergeSlot_kinds (slots : List Slot) (k : NoticeKind) (c : List Byte) :
    (mergeSlot slots k c).map (·.kind) = slots.map (·.kind) := by
  simp only [mergeSlot, List.map_map]
  exact List.map_congr_left fun x _ => by simp only [Function.comp]; split <;> rfl

theorem Link.place_bounded {l : Link} (k : NoticeKind) (c : List Byte) (h : l.bounded) :
    (l.place k c).bounded := by
  obtain ⟨hm, hq, hn, hs⟩ := h
  refine ⟨by rw [(l.place_grown k c).mailbox]; exact hm, l.place_queue_length k c hq, ?_⟩
  unfold Link.place
  split
  · exact ⟨hn, hs⟩
  · split
    · refine ⟨by rw [mergeSlot_kinds]; exact hn, ?_⟩
      simp only [mergeSlot, List.mem_map]
      rintro _ ⟨y, hy, rfl⟩
      have := hs y hy
      split
      · simp only
        omega
      · exact this
    · rename_i other
      simp only [List.any_eq_true, decide_eq_true_eq, not_exists, not_and] at other
      refine ⟨?_, ?_⟩
      · simp only [List.map_append, List.map_cons, List.map_nil]
        refine List.nodup_append.mpr ⟨hn, by simp, ?_⟩
        simp only [List.mem_map, List.mem_singleton]
        rintro _ ⟨y, hy, rfl⟩ _ rfl
        exact other y hy
      · intro x hx
        rcases List.mem_append.mp hx with hx | hx
        · exact hs x hx
        · obtain rfl := List.mem_singleton.mp hx
          exact ⟨le_refl 1, Nat.one_le_ofNat⟩

theorem State.send_changes (s : State) (n : Notice) : Changes s (s.send n) :=
  .of (.links s _ fun st h => by
    rw [PerStation.get_of]
    split
    · exact Link.release_bounded (Link.place_bounded _ _ h)
    · exact h)

theorem State.sendAll_changes (s : State) (ns : List Notice) : Changes s (s.sendAll ns) := by
  induction ns generalizing s with
  | nil => exact .refl
  | cons n ns ih => exact (s.send_changes n).trans (ih (s.send n))

theorem State.releaseAll_changes (s : State) : Changes s s.releaseAll :=
  .of (.links s _ fun st h => by rw [PerStation.get_of]; exact Link.release_bounded h)

theorem State.setReceiver_changes (s : State) (st : Station) (r : Receiver) :
    Changes s (s.setReceiver st r) :=
  s.setLink_changes st _ id

/-! The end of an event -/

theorem State.reviseLanes_changes (s s0 : State) : Changes s (s.reviseLanes s0) := by
  unfold State.reviseLanes
  split
  · refine .of (.lanes s _ (lanesResettled_map _ _ fun p _ => ?_))
    unfold revisedLane
    split
    · split
      · exact ⟨rfl, p.2.revise_resettled⟩
      · exact ⟨rfl, .refl p.2⟩
    · exact ⟨rfl, .refl p.2⟩
  · exact .refl

theorem State.reviseAccount_changes (s s0 : State) : Changes s (s.reviseAccount s0) := by
  unfold State.reviseAccount
  split
  · exact .of (.account s _ ⟨rfl, rfl, rfl⟩ id)
  · exact .refl

theorem State.runPass_changes (s : State) : Changes s s.runPass.1 := by
  by_cases h : s.passAllowed = true
  · exact .of (.pass s h)
  · rw [State.runPass_of_not_allowed s (by simpa using h)]

theorem State.passIf_changes (s : State) (run : Bool) : Changes s (s.passIf run) := by
  unfold State.passIf
  split
  · exact s.runPass_changes.trans (State.sendAll_changes _ _)
  · exact .refl

/-- A place is free for the reply of an event that is a request (R152). -/
def State.hasPlace (s : State) (r : Option (Station × Frame)) : Prop :=
  ∀ p, r = some p → (s.links.get p.1).queue.length < Config.queueSize

theorem State.answer_changes (s : State) (r : Option (Station × Frame)) (h : s.hasPlace r) :
    Changes s (s.answer r) := by
  cases r with
  | none => exact .refl
  | some p => exact s.reply_changes p.1 p.2 (h p rfl)

/-- The end of an event is a chain of changes and one image write. -/
theorem State.finish_moves (s1 s0 : State) (r : Option (Station × Frame)) (head tail : List Notice)
    (named : Bool) (h : s1.hasPlace r) : Moves s1 (s1.finish s0 r head tail named) := by
  have place : (s1.reviseLanes s0).hasPlace r := fun p hp => by simpa using h p hp
  have reported : Changes s1 (s1.report s0 r head tail) :=
    ((s1.reviseLanes_changes s0).trans (State.answer_changes _ r place)).trans (State.sendAll_changes _ _)
  have passed := reported.trans (State.passIf_changes _ (triggered s0 s1 named))
  have settled := (passed.trans (State.reviseAccount_changes _ s0)).trans (State.releaseAll_changes _)
  exact (Changes.moves settled).tail (.commit _)

theorem Moves.of_event {s s1 s0 : State} {head tail : List Notice} {named : Bool} (h : Changes s s1) :
    Moves s (s1.finish s0 none head tail named) :=
  (Changes.moves h).trans (State.finish_moves _ _ _ _ _ _ fun _ hp => nomatch hp)

end Sys2Proof.Machine

/-! What each request's handler does to the state: a chain of changes that leaves the links alone. -/

namespace Sys2Proof.Machine

/-- What taking a request comes to is a chain of changes, and no link is touched. -/
structure Taken.Lawful (s : State) (k : Taken) : Prop where
  changes : Changes s k.state
  links : k.state.links = s.links

theorem Taken.Lawful.same {s : State} {k : Taken} (h : k.state = s) : k.Lawful s := by
  rw [← h]
  exact ⟨.refl, rfl⟩

theorem Taken.Lawful.one {s : State} {k : Taken} (h : Change s k.state) (l : k.state.links = s.links) :
    k.Lawful s := ⟨.of h, l⟩

theorem refuse_lawful (s : State) (why : RefuseReason) (d : List Byte) : (refuse s why d).Lawful s :=
  .same rfl

theorem refuseAt_lawful (s : State) (n p : Nat) (d : List Byte) : (refuseAt s n p d).Lawful s :=
  .same rfl

theorem acknowledge_same_lawful (s : State) (c : List Byte) : (acknowledge s c).Lawful s := .same rfl

theorem acknowledge_lawful {s t : State} (c : List Byte) (h : Changes s t) (l : t.links = s.links) :
    (acknowledge t c).Lawful s := ⟨h, l⟩

theorem State.planMode_of_run {s : State} (h : s.mode = .run) : s.planMode = true := by
  simp [State.planMode, h]

/-! The ship profile -/

theorem within_iff (lo hi v : Nat) : within lo hi v = true ↔ lo ≤ v ∧ v ≤ hi := by
  simp [within]

theorem defOpens_lawful {st : Station} {s : State} {form number : Bool} {k : Taken}
    (h : s.mode = .profile → number = true → k.Lawful s) : (defOpens st s form number k).Lawful s := by
  unfold defOpens
  split
  · exact refuse_lawful ..
  · split
    · exact refuse_lawful ..
    · split
      · exact refuseAt_lawful ..
      · rename_i mode form
        simp only [Bool.not_eq_true, Bool.not_eq_false', Bool.and_eq_true] at form
        exact h (by simpa using mode) form.2

theorem removeRecordForm_lawful {s t : State} (d : Bool) (h : Changes s t) (l : t.links = s.links) :
    (removeRecordForm s d t).Lawful s := by
  unfold removeRecordForm
  split
  · exact acknowledge_lawful _ h l
  · exact refuse_lawful ..

theorem handleDefLane_lawful (st : Station) (p : List Byte) (s : State) :
    (handleDefLane st p s).Lawful s := by
  refine defOpens_lawful fun mode number => ?_
  obtain ⟨lo, hi⟩ := (within_iff ..).mp number
  split
  · exact removeRecordForm_lawful _ (.of (.defLanes s _ mode (Table.wf_erase _ _ _)
      fun q hq => .inl (Table.mem_of_mem_erase hq))) rfl
  · split
    · exact refuseAt_lawful ..
    · exact acknowledge_lawful _ (.of (.defLanes s _ mode (fun h => Table.wf_set _ _ _ _ h lo hi)
        fun q hq => (Table.mem_set hq).imp id fun e => ⟨_, congrArg Prod.snd e⟩)) rfl

theorem handleDefZone_lawful (st : Station) (p : List Byte) (s : State) :
    (handleDefZone st p s).Lawful s := by
  refine defOpens_lawful fun mode number => ?_
  obtain ⟨lo, hi⟩ := (within_iff ..).mp number
  split
  · exact removeRecordForm_lawful _ (.of (.defZones s _ mode (Table.wf_erase _ _ _)
      fun q hq => .inl (Table.mem_of_mem_erase hq))) rfl
  · split
    · exact refuseAt_lawful ..
    · exact acknowledge_lawful _ (.of (.defZones s _ mode (fun h => Table.wf_set _ _ _ _ h lo hi)
        fun q hq => (Table.mem_set hq).imp id fun e => by rw [e]; exact ⟨rfl, rfl⟩)) rfl

theorem handleDefRamp_lawful (st : Station) (p : List Byte) (s : State) :
    (handleDefRamp st p s).Lawful s := by
  refine defOpens_lawful fun mode number => ?_
  obtain ⟨lo, hi⟩ := (within_iff ..).mp number
  split
  · exact removeRecordForm_lawful _ (.of (.defRamps s _ mode (Table.wf_erase _ _ _)
      fun q hq => .inl (Table.mem_of_mem_erase hq))) rfl
  · split
    · exact refuseAt_lawful ..
    · split
      · exact refuseAt_lawful ..
      · exact acknowledge_lawful _ (.of (.defRamps s _ mode (fun h => Table.wf_set _ _ _ _ h lo hi)
          fun q hq => (Table.mem_set hq).imp id fun e => ⟨_, congrArg Prod.snd e⟩)) rfl

theorem handleDefSection_lawful (st : Station) (p : List Byte) (s : State) :
    (handleDefSection st p s).Lawful s := by
  refine defOpens_lawful fun mode number => ?_
  obtain ⟨lo, hi⟩ := (within_iff ..).mp number
  split
  · exact removeRecordForm_lawful _ (.of (.defSections s _ mode (Table.wf_erase _ _ _))) rfl
  · split
    · exact refuseAt_lawful ..
    · exact acknowledge_lawful _
        (.of (.defSections s _ mode fun h => Table.wf_set _ _ _ _ h lo hi)) rfl

theorem handleDefShip_lawful (st : Station) (p : List Byte) (s : State) :
    (handleDefShip st p s).Lawful s := by
  refine defOpens_lawful fun mode _ => ?_
  split
  · exact acknowledge_lawful _ (.of (.defShip s _ _ mode)) rfl
  · split
    · exact refuseAt_lawful ..
    · exact acknowledge_lawful _ (.of (.defShip s _ _ mode)) rfl

theorem handleSeal_lawful (st : Station) (p : List Byte) (s : State) : (handleSeal st p s).Lawful s := by
  unfold handleSeal
  split
  · exact refuse_lawful ..
  · split
    · exact refuse_lawful ..
    · split
      · exact refuseAt_lawful ..
      · split
        · exact refuse_lawful ..
        · rename_i mode _ _ none
          exact .one (.sealPlan s (by simpa using mode) none) rfl

theorem handleClearPlan_lawful (st : Station) (p : List Byte) {s : State} (w : s.working = true) :
    (handleClearPlan st p s).Lawful s := by
  unfold handleClearPlan
  split
  · exact refuse_lawful ..
  · split
    · exact refuseAt_lawful ..
    · split
      · exact .one (.erase s (by assumption)) rfl
      · split
        · exact refuse_lawful ..
        · split
          · exact refuse_lawful ..
          · rename_i mode empty _
            simp only [Bool.or_eq_true, List.any_eq_true, not_or, not_exists, not_and, Bool.not_eq_true,
              Bool.not_eq_false', List.isEmpty_iff] at empty
            exact .one (.clear s (State.planMode_of_ne_profile w mode) empty.1 empty.2) rfl

/-! Account and monitor -/

theorem clampInt_range (lo hi v : Int) (h : lo ≤ hi) : lo ≤ clampInt lo hi v ∧ clampInt lo hi v ≤ hi := by
  unfold clampInt
  split
  · omega
  · split <;> omega

theorem bandInRange_clamped (a b c : Int) :
    bandInRange (clampInt 0 400000000 a) (clampInt 0 400000000 b) (clampInt 0 50000000 c) = true := by
  have ha := clampInt_range 0 400000000 a (by decide)
  have hb := clampInt_range 0 400000000 b (by decide)
  have hc := clampInt_range 0 50000000 c (by decide)
  simp [bandInRange, ha, hb, hc]

theorem handleBand_lawful (st : Station) (p : List Byte) (s : State) : (handleBand st p s).Lawful s := by
  unfold handleBand
  split
  · exact refuse_lawful ..
  · split
    · exact refuseAt_lawful ..
    · exact .one (.account s _ ⟨rfl, rfl, rfl⟩ fun _ => bandInRange_clamped ..) rfl

/-- What `Monitor.ok` says, conjunct by conjunct. -/
theorem Monitor.ok_iff (m : Monitor) : m.ok = true ↔
    m.history.length ≤ 4 ∧ m.rail ≤ 4 ∧ m.qualified ≤ 4 ∧ m.divergence ≤ 4 ∧
      m.qualified ≤ m.history.length ∧ (m.state = .active ∨ m.qualified = 0 ∧ m.divergence = 0) := by
  simp [Monitor.ok, and_assoc]

/-- The monitor state does not read history, qualified samples, divergences or the heel stop. -/
theorem Monitor.state_congr {m k : Monitor} (h1 : k.kh = m.kh) (h2 : k.tank = m.tank)
    (h3 : k.rail = m.rail) : k.state = m.state := by
  unfold Monitor.state Monitor.railed
  rw [h1, h2, h3]

/-- Settling the counts leaves everything else (R71). -/
theorem Monitor.settle_fields (b : MonitorState) (m : Monitor) :
    (m.settle b).kh = m.kh ∧ (m.settle b).offset = m.offset ∧ (m.settle b).tolerance = m.tolerance ∧
      (m.settle b).tank = m.tank ∧ (m.settle b).history = m.history ∧ (m.settle b).rail = m.rail ∧
      (m.settle b).stop = m.stop := by
  unfold Monitor.settle
  split
  · exact ⟨rfl, rfl, rfl, rfl, rfl, rfl, rfl⟩
  · split <;> exact ⟨rfl, rfl, rfl, rfl, rfl, rfl, rfl⟩

theorem Monitor.settle_state (b : MonitorState) (m : Monitor) : (m.settle b).state = m.state :=
  have f := m.settle_fields b
  Monitor.state_congr f.1 f.2.2.2.1 f.2.2.2.2.2.1

theorem Monitor.settle_divergence_le (b : MonitorState) (m : Monitor) :
    (m.settle b).divergence ≤ m.divergence := by
  unfold Monitor.settle
  split
  · exact Nat.zero_le _
  · split <;> exact le_refl _

/-- Counts within their ranges are within them once settled: where the monitor was out of ACTIVE before, its
counts stood at 0. -/
theorem Monitor.settle_ok {b : MonitorState} {m : Monitor} (history : m.history.length ≤ 4)
    (rail : m.rail ≤ 4) (qualified : m.qualified ≤ 4) (divergence : m.divergence ≤ 4)
    (among : m.qualified ≤ m.history.length)
    (out : b = .active ∨ m.qualified = 0 ∧ m.divergence = 0) : (m.settle b).ok = true := by
  rw [Monitor.ok_iff, Monitor.settle_state]
  by_cases active : m.state = .active <;> by_cases before : b = .active <;>
    simp_all [Monitor.settle]

theorem natOf_append (a : List Byte) (b : Byte) : natOf (a ++ [b]) = natOf a * 256 + b.toNat := by
  simp [natOf]

theorem natOf_lt (bs : List Byte) : natOf bs < 256 ^ bs.length := by
  induction bs using List.reverseRecOn with
  | nil => simp
  | append_singleton a b ih =>
    rw [natOf_append, List.length_append, List.length_singleton, pow_succ]
    have := b.isLt
    omega

theorem natOf_field_lt (p : List Byte) (at_ len : Nat) : natOf (field p at_ len) < 256 ^ len :=
  (natOf_lt _).trans_le (Nat.pow_le_pow_right (by decide) (by simp [field]))

theorem heelModelInRange_of_payload (p : List Byte) :
    heelModelInRange (natOf (field p 0 2)) (clampInt (-200) 200 (intOf (field p 2 2)))
      (clampInt 5 500 (intOf (field p 4 2))) = true := by
  have hk := natOf_field_lt p 0 2
  have ho := clampInt_range (-200) 200 (intOf (field p 2 2)) (by decide)
  have ht := clampInt_range 5 500 (intOf (field p 4 2)) (by decide)
  simp only [heelModelInRange, ho, ht, decide_true, Bool.and_true, decide_eq_true_eq]
  omega

/-- The counts settled for a changed monitor, where its ranges are kept. -/
theorem State.withMonitor_change (s : State) (m : Monitor)
    (ok : s.monitor.ok = true → (m.settle s.monitor.state).ok = true)
    (range : heelModelInRange s.monitor.kh s.monitor.offset s.monitor.tolerance = true →
      heelModelInRange m.kh m.offset m.tolerance = true)
    (still : m.divergence ≤ s.monitor.divergence) : Change s (s.withMonitor m) := by
  have f := m.settle_fields s.monitor.state
  refine .monitor s _ ok (fun h => ?_) fun h => .inl ?_
  · rw [f.1, f.2.1, f.2.2.1]
    exact range h
  · have := m.settle_divergence_le s.monitor.state
    omega

theorem handleHeelModel_lawful (st : Station) (p : List Byte) (s : State) :
    (handleHeelModel st p s).Lawful s := by
  unfold handleHeelModel
  split
  · exact refuse_lawful ..
  · split
    · exact refuseAt_lawful ..
    · refine .one (s.withMonitor_change _ (fun h => ?_) (fun _ => heelModelInRange_of_payload p)
        (Nat.zero_le _)) rfl
      exact Monitor.settle_ok (Nat.zero_le _) ((Monitor.ok_iff _).mp h).2.1 (Nat.zero_le _)
        (Nat.zero_le _) (Nat.zero_le _) (.inr ⟨rfl, rfl⟩)

/-- A changed tank report alone leaves the counts in their ranges. -/
theorem State.withTank_change (s : State) (t : Option TankReport) :
    Change s (s.withMonitor { s.monitor with tank := t }) := by
  refine s.withMonitor_change _ (fun h => ?_) id (le_refl _)
  obtain ⟨history, rail, qualified, divergence, among, out⟩ := (Monitor.ok_iff _).mp h
  exact Monitor.settle_ok history rail qualified divergence among out

theorem handleTanks_lawful (st : Station) (p : List Byte) (s : State) :
    (handleTanks st p s).Lawful s := by
  unfold handleTanks
  split
  · exact refuse_lawful ..
  · split
    · exact refuseAt_lawful ..
    · exact .one (s.withTank_change _) rfl

theorem handleReleaseStop_lawful (st : Station) (p : List Byte) (s : State) :
    (handleReleaseStop st p s).Lawful s := by
  unfold handleReleaseStop
  split
  · exact refuse_lawful ..
  · split
    · exact refuseAt_lawful ..
    · split
      · exact acknowledge_same_lawful ..
      · split
        · exact refuse_lawful ..
        · exact .one (.monitor s _ id id .inl) rfl

/-! Samples -/

theorem State.takeRail_change (s : State) : Change s { s with monitor := s.monitor.takeRail } := by
  refine s.withMonitor_change { s.monitor with rail := min 4 (s.monitor.rail + 1) } (fun h => ?_) id
    (le_refl _)
  obtain ⟨history, rail, qualified, divergence, among, out⟩ := (Monitor.ok_iff _).mp h
  exact Monitor.settle_ok history (Nat.min_le_left _ _) qualified divergence among out

/-- The monitor once a valid code has ended the rail condition (R67). -/
def Monitor.unrailed (m : Monitor) : Monitor := Monitor.settle m.state { m with rail := 0 }

theorem Monitor.takeValid_eq (m : Monitor) (code : Nat) : m.takeValid code =
    { m.unrailed with
      history := m.unrailed.history.drop (m.unrailed.history.length - 3) ++
        [(code : Int) - 2048 + m.unrailed.offset]
      qualified := if m.unrailed.state = .active then min 4 (m.unrailed.qualified + 1)
        else m.unrailed.qualified } := rfl

theorem Monitor.unrailed_ok {m : Monitor} (h : m.ok = true) : m.unrailed.ok = true := by
  obtain ⟨history, rail, qualified, divergence, among, out⟩ := (Monitor.ok_iff _).mp h
  exact Monitor.settle_ok history (Nat.zero_le _) qualified divergence among out

theorem Monitor.takeValid_ok {m : Monitor} (h : m.ok = true) (code : Nat) :
    (m.takeValid code).ok = true := by
  obtain ⟨history, rail, qualified, divergence, among, out⟩ :=
    (Monitor.ok_iff _).mp (Monitor.unrailed_ok h)
  have same : (m.takeValid code).state = m.unrailed.state := Monitor.state_congr rfl rfl rfl
  rw [Monitor.ok_iff, same, Monitor.takeValid_eq]
  simp only [List.length_append, List.length_drop, List.length_singleton]
  refine ⟨by omega, rail, ?_, divergence, ?_, ?_⟩
  · split <;> omega
  · split <;> omega
  · by_cases active : m.unrailed.state = .active
    · exact .inl active
    · have zero := out.resolve_left active
      exact .inr ⟨by rw [if_neg active]; exact zero.1, zero.2⟩

theorem State.takeValid_change (s : State) (code : Nat) :
    Change s { s with monitor := s.monitor.takeValid code } := by
  have f := Monitor.settle_fields s.monitor.state { s.monitor with rail := 0 }
  have less := Monitor.settle_divergence_le s.monitor.state { s.monitor with rail := 0 }
  refine .monitor s _ (fun h => Monitor.takeValid_ok h code) (fun h => ?_) fun h => .inl ?_
  · simpa only [Monitor.takeValid, f.1, f.2.1, f.2.2.1] using h
  · exact Nat.le_zero.mp (h ▸ less)

/-- In ACTIVE a divergence count within four is in its range. -/
theorem State.divergence_change (s : State) (n : Nat) (stop : Bool) (hn : n ≤ 4) (h : s.compares = true) :
    Change s { s with monitor := { s.monitor with divergence := n, stop := stop } } := by
  simp only [State.compares, Bool.and_eq_true, decide_eq_true_eq] at h
  refine .monitor s _ (fun ok => ?_) id fun _ => .inr h.1.2
  obtain ⟨history, rail, qualified, -, among, -⟩ := (Monitor.ok_iff _).mp ok
  exact (Monitor.ok_iff _).mpr ⟨history, rail, qualified, hn, among, .inl h.1.1⟩

theorem State.compareHeel_changes (s : State) (h : s.compares = true) : Changes s s.compareHeel.1 := by
  unfold State.compareHeel
  split
  · exact .refl
  · split
    · dsimp only
      split
      · exact .of (s.divergence_change 4 true (by decide) h)
      · exact .of (s.divergence_change _ s.monitor.stop (Nat.min_le_left _ _) h)
    · exact .of (s.divergence_change 0 s.monitor.stop (by decide) h)

theorem State.takeSample_changes (s : State) (code : Nat) : Changes s (s.takeSample code).1 := by
  unfold State.takeSample
  split
  · exact .of s.takeRail_change
  · have valid := Changes.of (s.takeValid_change code)
    dsimp only
    split
    · exact valid.trans (State.compareHeel_changes _ (by assumption))
    · exact valid

/-! Clock, timeout, mode -/

theorem handleTimeout_lawful (st : Station) (p : List Byte) (s : State) :
    (handleTimeout st p s).Lawful s := by
  unfold handleTimeout
  have range := clampInt_range 60 900 (intOf p) (by decide)
  split
  · exact refuse_lawful ..
  · split
    · exact refuseAt_lawful ..
    · exact acknowledge_lawful _ (.of (.timeout s _ (by omega) (by omega))) rfl

theorem handleCutoff_lawful (st : Station) (p : List Byte) {s : State} (w : s.working = true) :
    (handleCutoff st p s).Lawful s := by
  unfold handleCutoff
  split
  · exact refuse_lawful ..
  · split
    · exact refuse_lawful ..
    · rename_i mode
      have plan := State.planMode_of_ne_profile w mode
      dsimp only
      split
      · exact refuseAt_lawful ..
      · split
        · exact acknowledge_lawful _ (.of (.clock s _ plan (fun h => nomatch h) id)) rfl
        · split
          · exact refuse_lawful ..
          · exact acknowledge_lawful _ (.of (.clock s _ plan (fun h => nomatch h) id)) rfl

theorem State.setUnitState_fold_links (ws : List Waiting) (x : UnitState) (s : State) :
    (ws.foldl (fun t w => t.setUnitState w.booking x) s).links = s.links := by
  induction ws generalizing s with
  | nil => rfl
  | cons w ws ih => exact ih _

theorem State.checkCutoff_changes {s : State} (plan : s.planMode = true) :
    Changes s s.checkCutoff.1 ∧ s.checkCutoff.1.links = s.links := by
  unfold State.checkCutoff
  split
  · exact ⟨.refl, rfl⟩
  · split
    · exact ⟨.of (.shutOut s plan), State.setUnitState_fold_links _ _ _⟩
    · exact ⟨.refl, rfl⟩

theorem State.setNow_changes {s : State} (plan : s.planMode = true) {v : Nat} (h : v ≤ Config.maxTime) :
    Changes s ({ s with clock := { s.clock with now := v } } : State).checkCutoff.1 ∧
      ({ s with clock := { s.clock with now := v } } : State).checkCutoff.1.links = s.links :=
  have rest := State.checkCutoff_changes (s := { s with clock := { s.clock with now := v } }) plan
  ⟨(Changes.of (.clock s { s.clock with now := v } plan id fun _ => h)).trans rest.1, rest.2⟩

theorem handleClock_lawful (st : Station) (p : List Byte) {s : State} (w : s.working = true) :
    (handleClock st p s).Lawful s := by
  unfold handleClock
  split
  · exact refuse_lawful ..
  · split
    · exact refuse_lawful ..
    · rename_i mode
      split
      · exact refuseAt_lawful ..
      · rename_i len
        have lt := natOf_lt p
        rw [not_not.mp len] at lt
        have set := State.setNow_changes (State.planMode_of_ne_profile w mode) (v := natOf p)
          (Nat.le_of_lt_succ lt)
        exact ⟨set.1, set.2⟩

theorem handleResume_lawful (st : Station) (p : List Byte) (s : State) :
    (handleResume st p s).Lawful s := by
  unfold handleResume
  split
  · exact refuse_lawful ..
  · split
    · exact refuse_lawful ..
    · split
      · exact refuseAt_lawful ..
      · split
        · exact .one (.run s (by assumption)) rfl
        · exact acknowledge_same_lawful ..

/-! Ramps and lanes -/

theorem handleSetMask_lawful (st : Station) (p : List Byte) (s : State) :
    (handleSetMask st p s).Lawful s := by
  unfold handleSetMask
  dsimp only
  split
  · exact refuse_lawful ..
  · split
    · exact refuse_lawful ..
    · split
      · exact refuseAt_lawful ..
      · split
        · exact refuseAt_lawful ..
        · split
          · exact refuseAt_lawful ..
          · split
            · exact refuse_lawful ..
            · exact .one (.ramp s _ _ (fun _ => rfl) fun _ _ => by simp only; omega) rfl

theorem setSuspended_lawful (flag : Bool) (st : Station) (p : List Byte) (s : State) :
    (setSuspended flag st p s).Lawful s := by
  unfold setSuspended
  dsimp only
  split
  · exact refuse_lawful ..
  · split
    · exact refuse_lawful ..
    · split
      · exact refuseAt_lawful ..
      · split
        · exact refuseAt_lawful ..
        · split
          · exact refuse_lawful ..
          · exact .one (.ramp s _ _ (fun _ => rfl) fun _ => id) rfl

theorem laneRequest_lawful {st : Station} {p : List Byte} {s : State} {k : Nat → Lane → Taken}
    (h : ∀ n l, s.lanes.get n = some l → (k n l).Lawful s) : (laneRequest st p s k).Lawful s := by
  unfold laneRequest
  dsimp only
  split
  · exact refuse_lawful ..
  · split
    · exact refuse_lawful ..
    · split
      · exact refuseAt_lawful ..
      · split
        · exact refuseAt_lawful ..
        · split
          · exact refuse_lawful ..
          · split
            · exact refuse_lawful ..
            · exact h _ _ (by assumption)

theorem setClosed_lawful (flag : Bool) (s : State) (n : Nat) (l : Lane) :
    (setClosed flag s n l).Lawful s :=
  acknowledge_lawful _ (s.onLane_changes n _ fun _ => ⟨rfl, rfl, rfl, rfl, id⟩) rfl

theorem handleSetPriority_lawful (st : Station) (p : List Byte) (s : State) :
    (handleSetPriority st p s).Lawful s := by
  unfold handleSetPriority
  dsimp only
  split
  · exact refuse_lawful ..
  · split
    · exact refuse_lawful ..
    · split
      · exact refuseAt_lawful ..
      · split
        · exact refuseAt_lawful ..
        · split
          · exact refuseAt_lawful ..
          · split
            · exact refuse_lawful ..
            · exact ⟨s.onLane_changes _ _ fun _ => ⟨rfl, rfl, rfl, rfl, fun _ => by simp only; omega⟩, rfl⟩

end Sys2Proof.Machine

namespace Sys2Proof.Machine

/-! Register and Waiting List -/

theorem handleAnnounce_lawful (st : Station) (p : List Byte) (s : State) :
    (handleAnnounce st p s).Lawful s := by
  unfold handleAnnounce
  dsimp only
  split
  · exact refuse_lawful ..
  · split
    · exact refuseAt_lawful ..
    · split
      · exact refuseAt_lawful ..
      · split
        · exact refuseAt_lawful ..
        · split
          · exact refuse_lawful ..
          · rename_i b _ _ _ free
            have free : s.findEntry b = none := by simpa using free
            split
            · rename_i old found
              split
              · rename_i state
                exact acknowledge_lawful _ (.of (.announce s _ rfl free
                  (fun r hr => by cases found.symm.trans hr; exact state)
                  fun hn => absurd hn (by simp [found]))) (by unfold State.putRecord; split <;> rfl)
              · exact refuse_lawful ..
            · rename_i none
              split
              · exact refuse_lawful ..
              · exact acknowledge_lawful _ (.of (.announce s _ rfl free
                  (fun r hr => absurd hr (by simp [none])) fun _ => by omega))
                  (by unfold State.putRecord; split <;> rfl)

theorem handleWithdraw_lawful (st : Station) (p : List Byte) (s : State) :
    (handleWithdraw st p s).Lawful s := by
  unfold handleWithdraw
  split
  · exact refuse_lawful ..
  · split
    · exact refuseAt_lawful ..
    · split
      · exact refuseAt_lawful ..
      · split
        · rename_i b _ _ unit found
          split
          case h_1 state => exact acknowledge_lawful _ (.of (.remove s b ⟨unit, found, .inl state⟩)) rfl
          case h_2 state => exact acknowledge_lawful _ (.of (.remove s b ⟨unit, found, .inr state⟩)) rfl
          case h_3 state => exact .one (.withdraw s b ⟨unit, found, state⟩) rfl
          case h_4 => exact refuse_lawful ..
          case h_5 => exact refuse_lawful ..
        · split
          · exact refuse_lawful ..
          · exact refuse_lawful ..

/-- The element that stands at a position is one of the list, with the booking asked for. -/
theorem State.waitingAt_some {s : State} {b : Booking} {x : Nat × Waiting} (h : s.waitingAt b = some x) :
    x.2 ∈ s.waiting ∧ x.2.booking = b := by
  simp only [State.waitingAt, Option.map_eq_some_iff] at h
  obtain ⟨y, hy, rfl⟩ := h
  have mem := List.mem_of_find?_eq_some hy
  have eq := List.find?_some hy
  exact ⟨List.fst_mem_of_mem_zipIdx mem, by simpa using eq⟩

theorem handleSendBack_lawful (st : Station) (p : List Byte) (s : State) :
    (handleSendBack st p s).Lawful s := by
  unfold handleSendBack
  split
  · exact refuse_lawful ..
  · split
    · exact refuse_lawful ..
    · split
      · exact refuseAt_lawful ..
      · split
        · exact refuseAt_lawful ..
        · split
          · exact refuse_lawful ..
          · rename_i w found
            obtain ⟨mem, eq⟩ := State.waitingAt_some found
            split
            · exact refuse_lawful ..
            · exact acknowledge_lawful _ (.of (.sendBack s _ ⟨_, mem, eq⟩)) rfl

/-! ARRIVE -/

@[simp] theorem State.putRecord_links (s : State) (r : UnitRecord) : (s.putRecord r).links = s.links := by
  unfold State.putRecord
  split <;> rfl

theorem State.findRecord_eq_none {s : State} {b : Booking} :
    s.findRecord b = none ↔ ∀ r ∈ s.register, r.booking ≠ b := by
  simp [State.findRecord]

theorem State.putRecord_of_new {s : State} {u : UnitRecord} (h : s.findRecord u.booking = none) :
    s.putRecord u = { s with register := s.register ++ [u] } := by
  have none : (s.register.any fun q => decide (q.booking = u.booking)) = false := by
    simpa using State.findRecord_eq_none.mp h
  simp [State.putRecord, none]

theorem State.findRecord_setUnitState {s : State} {b : Booking} {r : UnitRecord} (x : UnitState)
    (h : s.findRecord b = some r) : (s.setUnitState b x).findRecord b = some { r with state := x } := by
  obtain ⟨-, rfl⟩ := State.findRecord_some h
  simp only [State.findRecord, State.setUnitState, List.find?_map]
  have same : ((fun q : UnitRecord => decide (q.booking = r.booking)) ∘ fun q : UnitRecord =>
      if q.booking = r.booking then { q with state := x } else q) =
      fun q => decide (q.booking = r.booking) := by
    funext q
    by_cases e : q.booking = r.booking <;> simp [e]
  rw [same]
  simp only [State.findRecord] at h
  simp [h]

/-- What a booking lookup that delivers a record leaves of the state (R49, R50). -/
structure LookedUp (s : State) (b : Booking) (t : State) (u : UnitRecord) : Prop where
  changes : Changes s t
  links : t.links = s.links
  clock : t.clock = s.clock
  mode : t.mode = s.mode
  waiting : t.waiting = s.waiting
  found : t.findRecord b = some u
  state : u.state = .announced

theorem lookupNew_use {s t : State} {b : Booking} {d : Option RawUnit} {u : UnitRecord} {c : Bool}
    (new : s.findRecord b = none) (h : lookupNew s b d = .use t u c) : LookedUp s b t u := by
  unfold lookupNew at h
  split at h
  · cases h
  · rename_i held
    simp only [not_or, Bool.not_eq_true, Option.isSome_eq_false_iff, Option.isNone_iff_eq_none] at held
    split at h
    · cases h
    · split at h
      · cases h
      · split at h
        · cases h
        · cases h
          refine ⟨.of (.announce s _ rfl held.1 (fun r hr => absurd hr (by simp [new])) fun _ => by omega),
            State.putRecord_links _ _, ?_, ?_, ?_, ?_, rfl⟩ <;> rw [State.putRecord_of_new new]
          · rfl
          · simp only [State.findRecord] at new ⊢
            simp [List.find?_append, new]

theorem lookupUnit_use {s t : State} {b : Booking} {d : Option RawUnit} {u : UnitRecord} {c : Bool}
    (h : lookupUnit s b d = .use t u c) : LookedUp s b t u := by
  unfold lookupUnit at h
  split at h
  · rename_i unit found
    split at h
    case h_1 state =>
      cases h
      exact ⟨.refl, rfl, rfl, rfl, rfl, found, state⟩
    case h_2 state =>
      cases h
      exact ⟨.of (.reannounce s b ⟨unit, found, state⟩), rfl, rfl, rfl, rfl,
        State.findRecord_setUnitState _ found, rfl⟩
    case h_3 => cases h
    case h_4 => cases h
    case h_5 => cases h
  · exact lookupNew_use (by assumption) h

theorem waitOrRefuse_lawful {s t : State} {u : UnitRecord} (ramp : Nat) (rs : Reasons) (head : List Notice)
    (k : LookedUp s u.booking t u) (run : s.mode = .run) (open_ : s.clock.reached = false) :
    (waitOrRefuse t ramp u.booking rs head).Lawful s := by
  unfold waitOrRefuse
  split
  · exact ⟨k.changes.tail (.wait t
      { booking := u.booking, ramp := ramp, retries := 0, reasons := rs } (k.mode.trans run) ((congrArg _ k.clock).trans open_)
      ⟨u, k.found, k.state⟩ (by assumption) rfl), k.links⟩
  · exact ⟨k.changes, k.links⟩

theorem arriveWith_lawful {s t : State} {u : UnitRecord} (ramp : Nat) (row : Ramp) (head : List Notice)
    (k : LookedUp s u.booking t u) (run : s.mode = .run) (open_ : s.clock.reached = false) :
    (arriveWith t ramp row u head).Lawful s := by
  unfold arriveWith
  split
  · exact waitOrRefuse_lawful _ _ _ k run open_
  · split
    · exact waitOrRefuse_lawful _ _ _ k run open_
    · split
      · exact waitOrRefuse_lawful _ _ _ k run open_
      · exact ⟨k.changes.tail (.reserve t ramp row u _ _ (k.mode.trans run) k.found k.state
          (by assumption) (by assumption)), k.links⟩

theorem handleArrive_lawful (st : Station) (p : List Byte) (s : State) :
    (handleArrive st p s).Lawful s := by
  unfold handleArrive
  split
  · exact refuse_lawful ..
  · split
    · exact refuse_lawful ..
    · rename_i run
      split
      · exact refuse_lawful ..
      · split
        · exact refuse_lawful ..
        · split
          · exact refuse_lawful ..
          · rename_i open_
            split
            · exact refuseAt_lawful ..
            · split
              · exact refuseAt_lawful ..
              · split
                · exact .same rfl
                · rename_i found
                  have k := lookupUnit_use found
                  obtain ⟨-, rfl⟩ := State.findRecord_some k.found
                  exact arriveWith_lawful _ _ _ k (not_not.mp run) (by simpa using open_)

/-! UNLASH -/

theorem unlashFound_lawful {s : State} {ramp : Nat} {row : Ramp} {b : Booking} {f : Found}
    (run : s.mode = .run) (found : s.findEntry b = some f) (stowed : f.entry.state = .stowed) :
    (unlashFound s ramp row f).Lawful s := by
  unfold unlashFound
  dsimp only
  split
  · exact refuse_lawful ..
  · split
    · exact refuse_lawful ..
    · rename_i shown
      split
      · exact refuse_lawful ..
      · rename_i idle
        split
        · exact refuse_lawful ..
        · split
          · exact refuse_lawful ..
          · rename_i last room
            split
            · exact refuse_lawful ..
            · push Not at shown room last
              exact .one (.release s ramp row b f run
                ⟨found, stowed, ⟨shown.1, shown.2.1, shown.2.2.1⟩, by simpa using idle, last, room.1⟩) rfl

theorem handleUnlash_lawful (st : Station) (p : List Byte) (s : State) :
    (handleUnlash st p s).Lawful s := by
  unfold handleUnlash
  split
  · exact refuse_lawful ..
  · split
    · exact refuse_lawful ..
    · rename_i run
      split
      · exact refuse_lawful ..
      · split
        · exact refuse_lawful ..
        · split
          · exact refuse_lawful ..
          · split
            · exact refuseAt_lawful ..
            · split
              · exact refuseAt_lawful ..
              · split
                · split <;> exact refuse_lawful ..
                · split
                  · exact unlashFound_lawful (not_not.mp run) (by assumption) (by assumption)
                  · exact refuse_lawful ..

/-! Sections -/

theorem Sect.toFault_steps {free : Prop} (cause : FaultCause) (c : Sect)
    (h : c.holds = false ∨ free) : c.Steps free (c.toFault cause) :=
  ⟨fun _ _ => ⟨by simp [Sect.toFault, Sect.ok], by simp [Sect.toFault, Sect.originOk]⟩, .inr h⟩

/-- A coherent section that holds its position may start a move to a target (R141, R142). -/
theorem Sect.toMoving_steps {free : Prop} {target : Option Position} {c : Sect} (held : c.holds = true)
    (clear : c.ok = true → c.faultHeld = false) (aim : c.ok = true → target.isSome = true) (h : free) :
    c.Steps free (c.toMoving target) := by
  refine ⟨fun ok _ => ?_, .inr (.inr h)⟩
  have position : c.position.isSome = true := by
    cases e : c.state <;> simp_all [Sect.ok, Sect.holds]
  simp [Sect.toMoving, Sect.ok, Sect.originOk, clear ok, aim ok, position, Config.moveSeconds]

theorem State.resolved_changes (s : State) (n : Nat) :
    Changes s (s.resolved n).1 ∧ (s.resolved n).1.links = s.links := by
  unfold State.resolved
  split
  · exact ⟨.refl, rfl⟩
  · split
    · exact ⟨.refl, rfl⟩
    · rename_i c found
      split
      · rename_i wait
        have held : c.holds = true := by simp [Sect.holds, wait.1]
        have only : ∀ d, s.sections.get _ = some d → d = c := fun d hd => by
          simpa using hd.symm.trans found
        split
        · exact ⟨.of (.sect s _ _ fun d hd => Sect.toFault_steps _ d (.inr wait.2)), rfl⟩
        · rename_i clear
          refine ⟨.of (.sect s _ _ fun d hd => ?_), rfl⟩
          obtain rfl := only d hd
          refine Sect.toMoving_steps held (fun _ => by simpa using clear) (fun ok => ?_) wait.2
          simp_all [Sect.ok]
      · exact ⟨.refl, rfl⟩

theorem resolution_lawful {s t : State} (n : Nat) (r : Reply) (head : List Notice) (h : Changes s t)
    (l : t.links = s.links) : (resolution t n r head).Lawful s :=
  ⟨h.trans (t.resolved_changes n).1, (t.resolved_changes n).2.trans l⟩

theorem State.fittedSection_some {s : State} {n : Nat} {c : Sect} (h : s.fittedSection n = some c) :
    s.isSealed = true ∧ s.sections.get n = some c := by
  unfold State.fittedSection at h
  split at h
  · exact ⟨by assumption, h⟩
  · cases h

theorem sectionRequest_lawful {st : Station} {p : List Byte} {s : State} {len : Nat} {ok : Bool}
    {shown : Sect → List Byte} {k : Nat → Sect → Taken}
    (h : ∀ n c, s.sections.get n = some c → (k n c).Lawful s) :
    (sectionRequest st p s len ok shown k).Lawful s := by
  unfold sectionRequest
  dsimp only
  split
  · exact refuse_lawful ..
  · split
    · exact refuse_lawful ..
    · split
      · exact refuseAt_lawful ..
      · split
        · exact refuseAt_lawful ..
        · split
          · exact refuseAt_lawful ..
          · split
            · exact refuse_lawful ..
            · rename_i found
              exact h _ _ (State.fittedSection_some found).2

theorem startMove_lawful {s : State} {n : Nat} {c : Sect} (target : Position)
    (hc : s.sections.get n = some c) (rest : c.state = .atPosition) : (startMove s n target).Lawful s := by
  have only : ∀ d, s.sections.get n = some d → d = c := fun d hd => by simpa using hd.symm.trans hc
  have held : c.holds = true := by simp [Sect.holds, rest]
  have clear : c.ok = true → c.faultHeld = false := fun ok => by simp_all [Sect.ok]
  unfold startMove
  dsimp only
  split
  · rename_i free
    refine .one (.sect s n _ fun d hd => ?_) rfl
    obtain rfl := only d hd
    exact Sect.toMoving_steps held clear (fun _ => rfl) (by simpa using free)
  · refine .one (.sect s n _ fun d hd => ?_) rfl
    obtain rfl := only d hd
    exact ⟨fun ok origin => by simp_all [Sect.ok, Sect.originOk], .inl (by simp [Sect.holds])⟩

theorem moveSection_lawful {s : State} {n : Nat} {c : Sect} (target : Position)
    (hc : s.sections.get n = some c) : (moveSection target s n c).Lawful s := by
  unfold moveSection
  split
  · exact acknowledge_same_lawful ..
  · split
    case h_1 => exact refuse_lawful ..
    case h_2 => exact refuse_lawful ..
    case h_3 => exact refuse_lawful ..
    case h_4 rest =>
      split
      · exact refuse_lawful ..
      · split
        · exact startMove_lawful target hc rest
        · split
          · exact refuse_lawful ..
          · exact startMove_lawful target hc rest

theorem cancelSection_lawful {s : State} {n : Nat} {c : Sect} (hc : s.sections.get n = some c) :
    (cancelSection s n c).Lawful s := by
  unfold cancelSection
  split
  case h_1 wait =>
    split
    · exact refuse_lawful ..
    · rename_i clear
      refine .one (.sect s n _ fun d hd => ?_) rfl
      obtain rfl : d = c := by simpa using hd.symm.trans hc
      exact ⟨fun ok origin => by simp_all [Sect.ok, Sect.originOk], .inl (by simp [Sect.holds])⟩
  all_goals exact refuse_lawful ..

theorem Sect.toPosition_steps {free : Prop} (p : Position) (c : Sect)
    (clear : c.ok = true → c.faultHeld = false) : c.Steps free (c.toPosition p) :=
  ⟨fun ok _ => by simp [Sect.toPosition, Sect.ok, Sect.originOk, clear ok], .inl (by simp [Sect.toPosition, Sect.holds])⟩

theorem State.settleAt_changes {s : State} {n : Nat} {c : Sect} (p : Position)
    (hc : s.sections.get n = some c) (clear : c.ok = true → c.faultHeld = false) :
    Changes s (s.settleAt n p) :=
  (Changes.of (.sect s n _ fun d hd => by
    obtain rfl : d = c := by simpa using hd.symm.trans hc
    exact Sect.toPosition_steps p d clear)).trans (State.setClearances_changes _ n p)

@[simp] theorem State.setClearances_links (s : State) (n : Nat) (p : Position) :
    (s.setClearances n p).links = s.links := by
  unfold State.setClearances
  split <;> rfl

@[simp] theorem State.setClearances_sections (s : State) (n : Nat) (p : Position) :
    (s.setClearances n p).sections = s.sections := by
  unfold State.setClearances
  split <;> rfl

@[simp] theorem State.settleAt_links (s : State) (n : Nat) (p : Position) :
    (s.settleAt n p).links = s.links := State.setClearances_links _ n p

theorem clearAt_lawful {s : State} {n : Nat} {c : Sect} (p : Position) (hc : s.sections.get n = some c)
    (fault : c.state = .fault) : (clearAt s n c p).Lawful s := by
  refine ⟨(State.settleAt_changes p hc fun ok => by simp_all [Sect.ok]).tail (.sect _ n _ fun d hd => ?_),
    State.settleAt_links s n p⟩
  obtain rfl : d = c.toPosition p := by
    simp only [State.settleAt, State.setClearances_sections, State.onSection, Table.get_modify, if_true, hc,
      Option.map_some, Option.some.injEq] at hd
    exact hd.symm
  exact ⟨fun ok origin => by simp_all [Sect.ok, Sect.originOk, Sect.toPosition],
    .inl (by simp [Sect.holds, Sect.toPosition])⟩

theorem clearSection_lawful {s : State} {n : Nat} {c : Sect} (hc : s.sections.get n = some c) :
    (clearSection s n c).Lawful s := by
  unfold clearSection
  split
  case h_1 fault =>
    unfold readFault
    split
    · exact refuse_lawful ..
    · split
      · split
        · exact refuse_lawful ..
        · exact clearAt_lawful _ hc fault
      · exact clearAt_lawful _ hc fault
  case h_2 => exact refuse_lawful ..
  case h_3 =>
    split
    · exact refuse_lawful ..
    · exact acknowledge_same_lawful ..
  case h_4 => exact acknowledge_same_lawful ..

/-- A section may come to hold a fault while it holds its position. -/
theorem Sect.toHeldFault_steps {free : Prop} {c : Sect} (cause : FaultCause) (held : c.holds = true) :
    c.Steps free (c.toHeldFault cause) := by
  refine ⟨fun ok origin => ?_, .inl (by simp [Sect.toHeldFault, Sect.holds])⟩
  cases e : c.state <;> simp_all [Sect.toHeldFault, Sect.ok, Sect.originOk, Sect.holds]

theorem State.sensorFault_changes {s : State} {n : Nat} {c : Sect} (cause : FaultCause)
    (hc : s.sections.get n = some c) (held : c.holds = true) : Changes s (s.sensorFault n cause) := by
  unfold State.sensorFault
  split
  · rename_i free
    exact .of (.sect s n _ fun d _ => Sect.toFault_steps _ d (.inr (by simpa using free)))
  · refine .of (.sect s n _ fun d hd => ?_)
    obtain rfl : d = c := by simpa using hd.symm.trans hc
    exact Sect.toHeldFault_steps cause held

/-! Movements -/

theorem State.reservationOn_some {s : State} {n : Nat} {r : Reservation} (h : s.reservationOn n = some r) :
    r ∈ s.movements ∧ r.lane = n :=
  ⟨List.mem_of_find?_eq_some h, by simpa using List.find?_some h⟩

theorem State.oldest_some {s : State} {ramp : Nat} {k : MoveKind} {r : Reservation}
    (h : s.oldest ramp k = some r) : r ∈ s.movements ∧ r.ramp = ramp ∧ r.kind = k := by
  have := List.find?_some h
  simp only [Bool.and_eq_true, decide_eq_true_eq] at this
  exact ⟨List.mem_of_find?_eq_some h, this⟩

section
variable {s : State} {r : Reservation} (hr : r ∈ s.movements)
include hr

theorem stowOnTime_lawful (hk : r.kind = .load) : (stowOnTime s r).Lawful s :=
  resolution_lawful _ _ _ (.of (.stow s r hr hk)) rfl

theorem backOutLoad_lawful (hk : r.kind = .load) : (backOutLoad s r).Lawful s :=
  resolution_lawful _ _ _ (.of (.backOut s r hr hk)) rfl

theorem offloadOnTime_lawful (hk : s.Discharging r) : (offloadOnTime s r).Lawful s :=
  resolution_lawful _ _ _ (.of (.offload s r hr hk)) rfl

theorem keepAboard_lawful (hk : s.Discharging r) : (keepAboard s r).Lawful s :=
  resolution_lawful _ _ _ (.of (.keep s r hr hk)) rfl

end

theorem confirmation_lawful {st : Station} {p : List Byte} {s : State} {kind : MoveKind} {len : Nat}
    {onTime : Reservation → Taken} {specific : Taken}
    (h : ∀ r ∈ s.movements, r.kind = kind → (onTime r).Lawful s) (k : specific.Lawful s) :
    (confirmation st p s kind len onTime specific).Lawful s := by
  unfold confirmation
  split
  · exact refuse_lawful ..
  · split
    · exact refuse_lawful ..
    · split
      · split
        · rename_i found
          obtain ⟨mem, -, eq⟩ := State.oldest_some found
          exact h _ mem eq
        · exact refuse_lawful ..
      · split
        · exact k
        · exact refuseAt_lawful ..

theorem laneAndBooking_lawful {p : List Byte} {s : State} {k : Nat → Lane → Booking → Taken}
    (h : ∀ n l b, s.lanes.get n = some l → (k n l b).Lawful s) : (laneAndBooking p s k).Lawful s := by
  unfold laneAndBooking
  dsimp only
  split
  · exact refuseAt_lawful ..
  · split
    · exact refuseAt_lawful ..
    · split
      · exact refuse_lawful ..
      · exact h _ _ _ (by assumption)

theorem lateLashed_lawful {s : State} {n : Nat} {l : Lane} {c : CheckRecord} {u : UnitBody}
    (lane : s.lanes.get n = some l) (check : l.check = some c) (unit : c.content = .load u) :
    (lateLashed s n l c u).Lawful s := by
  unfold lateLashed
  split
  · exact refuse_lawful ..
  · split
    · exact refuse_lawful ..
    · exact resolution_lawful _ _ _ (.of (.stowLate s n l c u lane check unit (by omega))) rfl

theorem lashedOn_lawful {s : State} {n : Nat} {l : Lane} (b : Booking) (lane : s.lanes.get n = some l) :
    (lashedOn s n l b).Lawful s := by
  unfold lashedOn
  split
  · rename_i found
    split
    · rename_i fits
      exact stowOnTime_lawful (State.reservationOn_some found).1 fits.1
    · exact refuse_lawful ..
  · split
    · exact refuse_lawful ..
    · split
      · split
        · exact lateLashed_lawful lane (by assumption) (by assumption)
        · exact refuse_lawful ..
      · exact refuse_lawful ..

theorem backoutOn_lawful (s : State) (n : Nat) (l : Lane) (b : Booking) :
    (backoutOn s n l b).Lawful s := by
  unfold backoutOn
  split
  · rename_i found
    split
    · rename_i fits
      exact backOutLoad_lawful (State.reservationOn_some found).1 fits.1
    · exact refuse_lawful ..
  · split
    · exact refuse_lawful ..
    · split
      · split <;> exact refuse_lawful ..
      · exact refuse_lawful ..

theorem handleLashed_lawful (st : Station) (p : List Byte) (s : State) : (handleLashed st p s).Lawful s :=
  confirmation_lawful (fun _ mem eq => stowOnTime_lawful mem eq)
    (laneAndBooking_lawful fun _ _ b lane => lashedOn_lawful b lane)

theorem handleBackout_lawful (st : Station) (p : List Byte) (s : State) : (handleBackout st p s).Lawful s :=
  confirmation_lawful (fun _ mem eq => backOutLoad_lawful mem eq)
    (laneAndBooking_lawful fun n l b _ => backoutOn_lawful s n l b)

/-- The entry a booking is found at stands in its lane, at its position. -/
theorem findInLane_some {n : Nat} {l : Lane} {b : Booking} {f : Found} (h : findInLane n l b = some f) :
    f.laneNo = n ∧ f.lane = l ∧ f.entry.booking = b ∧ 1 ≤ f.position ∧
      l.entries[f.position - 1]? = some f.entry := by
  simp only [findInLane, Option.map_eq_some_iff] at h
  obtain ⟨x, hx, rfl⟩ := h
  have mem := List.mem_of_find?_eq_some hx
  have eq := List.find?_some hx
  rw [List.mem_zipIdx_iff_le_and_getElem?_sub] at mem
  exact ⟨rfl, rfl, by simpa using eq, mem.1, mem.2⟩

theorem State.findEntry_some {s : State} {b : Booking} {f : Found} (h : s.findEntry b = some f) :
    (f.laneNo, f.lane) ∈ s.lanes ∧ f.entry.booking = b ∧ 1 ≤ f.position ∧
      f.lane.entries[f.position - 1]? = some f.entry := by
  obtain ⟨p, hp, found⟩ := List.exists_of_findSome?_eq_some h
  obtain ⟨hn, hl, rest⟩ := findInLane_some found
  exact ⟨by rw [hn, hl]; exact hp, by rw [hl]; exact rest⟩


theorem heldBooking_lawful {p : List Byte} {s : State} {leaving : Reservation → Taken}
    {checked : Found → CheckRecord → Taken}
    (h : ∀ r ∈ s.movements, s.Discharging r → (leaving r).Lawful s)
    (k : ∀ b f c, s.findEntry b = some f → f.entry.state = .stowed → f.lane.check = some c →
      c.content = .discharge → c.booking = b → f.position = f.lane.entries.length →
      (checked f c).Lawful s) : (heldBooking s p leaving checked).Lawful s := by
  unfold heldBooking
  split
  · exact refuseAt_lawful ..
  · split
    · rename_i f found
      split
      case h_1 state =>
        split
        · rename_i r on
          obtain ⟨mem, lane⟩ := State.reservationOn_some on
          obtain ⟨inLane, -, -, inEntries⟩ := State.findEntry_some found
          exact h r mem (.inr ⟨_, _, lane ▸ inLane, List.mem_of_getElem? inEntries, state⟩)
        · exact refuse_lawful ..
      case h_2 => exact refuse_lawful ..
      case h_3 state =>
        split
        · split
          · rename_i fits
            exact k _ _ _ found state (by assumption) fits.1 fits.2.1 fits.2.2
          · exact refuse_lawful ..
        · exact refuse_lawful ..
    · split <;> exact refuse_lawful ..


theorem handleOffloaded_lawful (st : Station) (p : List Byte) (s : State) :
    (handleOffloaded st p s).Lawful s :=
  confirmation_lawful (fun _ mem eq => offloadOnTime_lawful mem (.inl eq))
    (heldBooking_lawful (fun _ mem d => offloadOnTime_lawful mem d)
      fun b f c found stowed check kind booking last =>
        resolution_lawful _ _ _ (.of (.offloadLate s b f c found stowed check kind booking last)) rfl)

theorem handleKeep_lawful (st : Station) (p : List Byte) (s : State) : (handleKeep st p s).Lawful s :=
  confirmation_lawful (fun _ mem eq => keepAboard_lawful mem (.inl eq))
    (heldBooking_lawful (fun _ mem d => keepAboard_lawful mem d) fun _ _ _ _ _ _ _ _ _ =>
      refuse_lawful ..)

theorem verifyLane_lawful {s : State} {n : Nat} {l : Lane} (lane : s.lanes.get n = some l) :
    (verifyLane s n l).Lawful s := by
  unfold verifyLane
  split
  · exact refuse_lawful ..
  · rename_i check
    split
    · exact resolution_lawful _ _ _ (.of (.dropLoad s n l _ _ lane check (by assumption))) rfl
    · exact resolution_lawful _ _ _ (.of (.dropDischarge s n l _ lane check (by assumption))) rfl

/-! Reads -/

theorem handleReadLane_lawful (st : Station) (p : List Byte) (s : State) :
    (handleReadLane st p s).Lawful s := by
  unfold handleReadLane
  dsimp only
  split
  · exact refuse_lawful ..
  · split
    · exact refuseAt_lawful ..
    · split
      · exact refuseAt_lawful ..
      · split
        · exact refuseAt_lawful ..
        · split
          · exact refuse_lawful ..
          · exact acknowledge_same_lawful ..

theorem handleReadUnit_lawful (st : Station) (p : List Byte) (s : State) :
    (handleReadUnit st p s).Lawful s := by
  unfold handleReadUnit
  split
  · exact refuseAt_lawful ..
  · split
    · exact refuseAt_lawful ..
    · split
      · exact acknowledge_same_lawful ..
      · exact acknowledge_same_lawful ..
      · exact refuse_lawful ..

theorem handleReadAccount_lawful (st : Station) (p : List Byte) (s : State) :
    (handleReadAccount st p s).Lawful s := by
  unfold handleReadAccount
  dsimp only
  split
  · exact refuseAt_lawful ..
  · split
    · exact refuseAt_lawful ..
    · exact acknowledge_same_lawful ..

theorem handleReadState_lawful (st : Station) (p : List Byte) (s : State) :
    (handleReadState st p s).Lawful s := by
  unfold handleReadState
  dsimp only
  split
  · exact refuseAt_lawful ..
  · split
    · exact refuseAt_lawful ..
    · exact acknowledge_same_lawful ..

theorem handleIdent_lawful (st : Station) (p : List Byte) (s : State) : (handleIdent st p s).Lawful s := by
  unfold handleIdent
  split
  · exact refuseAt_lawful ..
  · exact acknowledge_same_lawful ..

theorem handleSubscribe_lawful (st : Station) (p : List Byte) (s : State) :
    (handleSubscribe st p s).Lawful s := by
  unfold handleSubscribe
  dsimp only
  split
  · exact refuseAt_lawful ..
  · split
    · exact refuseAt_lawful ..
    · split
      · exact refuseAt_lawful ..
      · exact acknowledge_lawful _ (s.setStation_changes st _ id) rfl

end Sys2Proof.Machine

/-! What each command does: a chain of moves. -/

namespace Sys2Proof.Machine

/-! Presence -/

theorem State.planLock_changes (s : State) : Changes s s.planLock.1 := by
  unfold State.planLock
  split
  · rename_i h
    exact .of (.run s h.1)
  · exact .refl

@[simp] theorem State.planLock_links (s : State) : s.planLock.1.links = s.links := by
  unfold State.planLock
  split <;> rfl

theorem State.changePresence_changes (s : State) (st : Station) (here : Bool) {quiet : Option Nat}
    (cause : PresenceCause) (h : quiet.getD 0 ≤ Config.quietLimit) :
    Changes s (s.changePresence st here quiet cause).1 := by
  have row := s.setStation_changes st { s.stations.get st with present := here, quiet := quiet } fun _ => h
  unfold State.changePresence
  dsimp only
  split
  · split
    · exact row.trans (State.planLock_changes _)
    · exact row
  · exact row

@[simp] theorem State.changePresence_links (s : State) (st : Station) (here : Bool) (quiet : Option Nat)
    (cause : PresenceCause) : (s.changePresence st here quiet cause).1.links = s.links := by
  unfold State.changePresence
  dsimp only
  split
  · split
    · exact State.planLock_links _
    · rfl
  · rfl

theorem State.makeAbsent_changes (s : State) (st : Station) (cause : PresenceCause) :
    Changes s (s.makeAbsent st cause).1 := by
  unfold State.makeAbsent
  split
  · exact s.changePresence_changes st false cause (Nat.zero_le _)
  · exact s.setStation_changes st _ fun _ => Nat.zero_le _

@[simp] theorem State.makeAbsent_links (s : State) (st : Station) (cause : PresenceCause) :
    (s.makeAbsent st cause).1.links = s.links := by
  unfold State.makeAbsent
  split
  · exact State.changePresence_links ..
  · rfl

/-- A link emptied by a reset (R154). -/
def Link.emptied (l : Link) (r : Receiver) : Link :=
  { l with mailbox := [], queue := [], slots := [], receiver := r }

theorem Link.emptied_bounded (l : Link) (r : Receiver) : (l.emptied r).bounded :=
  ⟨Nat.zero_le _, Nat.zero_le _, List.nodup_nil, fun _ h => nomatch h⟩

theorem State.resetLink_changes (s : State) (st : Station) : Changes s (s.resetLink st).1 :=
  (s.setLink_changes st _ fun _ => Link.emptied_bounded _ _).trans (State.makeAbsent_changes _ st .reset)

theorem State.resetLink_get_of_ne (s : State) {st o : Station} (h : o ≠ st) :
    (s.resetLink st).1.links.get o = s.links.get o := by
  unfold State.resetLink
  simp [h]

theorem State.takeReady_changes (s : State) (st : Station) (level : Bool) :
    Changes s (s.takeReady st level).1 := by
  have link := s.setLink_changes st { s.links.get st with ready := level } id
  unfold State.takeReady
  dsimp only
  split
  · exact link
  · exact link.trans (State.makeAbsent_changes _ st .lineReady)

theorem State.hear_changes (s : State) (st : Station) : Changes s (s.hear st).1 := by
  unfold State.hear
  split
  · exact s.setStation_changes st _ fun _ => Nat.zero_le _
  · exact s.changePresence_changes st true .frame (Nat.zero_le _)

@[simp] theorem State.hear_links (s : State) (st : Station) : (s.hear st).1.links = s.links := by
  unfold State.hear
  split
  · rfl
  · exact State.changePresence_links ..

theorem Link.post_bounded {l : Link} (f : Frame) (h : l.bounded) : (l.post f).bounded := by
  obtain ⟨hm, hq, hs⟩ := h
  unfold Link.post
  split
  · exact ⟨by simp; omega, hq, hs⟩
  · exact ⟨hm, hq, hs⟩

theorem State.frameGathered_moves (s : State) (st : Station) (bytes : List Byte) :
    Moves s (s.frameGathered st bytes) := by
  unfold State.frameGathered
  split
  · exact .refl
  · exact .of_event ((s.hear_changes st).trans (State.setLink_changes _ st _ (Link.post_bounded _)))

/-! Requests -/

/-- A request whose handler makes changes and leaves its own link moves the state, or is not taken. -/
theorem State.take_moves {s : State} {st : Station} {isKind : Nat → Bool} {handle : Frame → State → Taken}
    (h : ∀ f {t : State}, t.working = true →
      Changes t (handle f t).state ∧ (handle f t).state.links.get st = t.links.get st) :
    ∃ t, s.take st isKind handle = .next t ∧ Moves s t := by
  unfold State.take
  split
  · rename_i f next
    split
    · unfold State.nextRequest at next
      split at next
      · rename_i free
        obtain ⟨changes, link⟩ := h f (t := s.popMailbox st) free.1
        refine ⟨_, rfl, (Changes.moves ((s.popMailbox_changes st).trans changes)).trans
          (State.finish_moves _ _ _ _ _ _ fun p hp => ?_)⟩
        cases hp
        rw [link]
        simpa using free.2
      · cases next
    · exact ⟨s, rfl, .refl⟩
  · exact ⟨s, rfl, .refl⟩

theorem State.takeKind_moves {s : State} {st : Station} {code : Nat}
    {handle : Station → List Byte → State → Taken}
    (h : ∀ (p : List Byte) {t : State}, t.working = true → (handle st p t).Lawful t) :
    ∃ t, s.takeKind st code handle = .next t ∧ Moves s t :=
  State.take_moves fun f _ w => ⟨(h f.payload w).changes, by rw [(h f.payload w).links]⟩

theorem handleLinkReset_changes (st : Station) (p : List Byte) (s : State) :
    Changes s (handleLinkReset st p s).state ∧
      (handleLinkReset st p s).state.links.get st = s.links.get st := by
  unfold handleLinkReset
  dsimp only
  split
  · exact ⟨.refl, rfl⟩
  · rename_i loading
    split
    · exact ⟨.refl, rfl⟩
    · split
      · exact ⟨.refl, rfl⟩
      · rename_i target named
        refine ⟨s.resetLink_changes target, s.resetLink_get_of_ne ?_⟩
        rintro rfl
        rw [not_not.mp loading] at named
        unfold resettable at named
        split at named
        · cases named
        · have := List.find?_some named
          simp [stationNumber] at this
          omega

theorem execLinkReset_moves (st : Station) (s : State) : ∃ t, execLinkReset st s = .next t ∧ Moves s t := by
  unfold execLinkReset State.takeKind
  exact State.take_moves fun f t _ => handleLinkReset_changes st f.payload t

theorem execUnknownMessageKind_moves (st : Station) (s : State) :
    ∃ t, execUnknownMessageKind st s = .next t ∧ Moves s t := by
  unfold execUnknownMessageKind
  exact State.take_moves fun f t _ => ⟨.refl, rfl⟩

/-! Bytes, breaks and line-ready -/

theorem State.frameGathered_fold_moves (st : Station) (frames : List (List Byte)) (s : State) :
    Moves s (frames.foldl (fun t b => t.frameGathered st b) s) := by
  induction frames generalizing s with
  | nil => exact .refl
  | cons b rest ih => exact (s.frameGathered_moves st b).trans (ih _)

theorem execFrameReceived_moves (st : Station) (bytes : List Byte) (s : State) :
    ∃ t, execFrameReceived st bytes s = .next t ∧ Moves s t := by
  unfold execFrameReceived
  split
  · exact ⟨_, rfl, (Changes.moves (s.setReceiver_changes st _)).trans
      (State.frameGathered_fold_moves st _ _)⟩
  · exact ⟨s, rfl, .refl⟩

theorem execInterbyteTimeout_moves (st : Station) (s : State) :
    ∃ t, execInterbyteTimeout st s = .next t ∧ Moves s t := by
  unfold execInterbyteTimeout
  split
  · split
    · exact ⟨_, rfl, Changes.moves (s.setReceiver_changes st _)⟩
    · exact ⟨s, rfl, .refl⟩
  · exact ⟨s, rfl, .refl⟩
  · exact ⟨s, rfl, .refl⟩

theorem execBreakEnd_moves (st : Station) (s : State) : ∃ t, execBreakEnd st s = .next t ∧ Moves s t := by
  unfold execBreakEnd
  split
  · split
    · exact ⟨_, rfl, Changes.moves (s.setReceiver_changes st _)⟩
    · exact ⟨s, rfl, .refl⟩
  · exact ⟨s, rfl, .refl⟩
  · exact ⟨s, rfl, .refl⟩

theorem execFrameSent_moves (st : Station) (s : State) : ∃ t, execFrameSent st s = .next t ∧ Moves s t := by
  unfold execFrameSent
  split
  · exact ⟨s, rfl, .refl⟩
  · rename_i f rest queue
    split
    · refine ⟨_, rfl, .of_event (s.setLink_changes st _ fun ⟨hm, hq, hs⟩ => ⟨hm, ?_, hs⟩)⟩
      rw [queue] at hq
      exact (Nat.le_succ _).trans hq
    · exact ⟨s, rfl, .refl⟩

theorem execLineBreak_moves (st : Station) (s : State) : ∃ t, execLineBreak st s = .next t ∧ Moves s t := by
  unfold execLineBreak
  split
  · exact ⟨_, rfl, .of_event ((s.resetLink_changes st).trans (State.setReceiver_changes _ st _))⟩
  · exact ⟨s, rfl, .refl⟩

theorem execLineReadyChange_moves (st : Station) (asserted : Bool) (s : State) :
    ∃ t, execLineReadyChange st asserted s = .next t ∧ Moves s t := by
  have pin := s.setLink_changes st { s.links.get st with readyInput := asserted } id
  unfold execLineReadyChange
  dsimp only
  split
  · exact ⟨_, rfl, .of_event (pin.trans (State.takeReady_changes _ st asserted))⟩
  · exact ⟨_, rfl, Changes.moves pin⟩

theorem execQuietLimit_moves (st : Station) (s : State) : ∃ t, execQuietLimit st s = .next t ∧ Moves s t := by
  unfold execQuietLimit
  split
  · exact ⟨_, rfl, .of_event (s.changePresence_changes st false .quiet (Nat.zero_le _))⟩
  · exact ⟨s, rfl, .refl⟩

/-! Expiries, samples and the clock -/

theorem State.expiring_some {s : State} {n : Nat} {k : MoveKind} {r : Reservation}
    (h : s.expiring n k = some r) : s.reservationOn n = some r ∧ r.kind = k ∧ r.seconds = 0 := by
  simpa [State.expiring, Option.filter_eq_some_iff] using h

theorem execLoadExpiry_moves (n : Nat) (s : State) : ∃ t, execLoadExpiry n s = .next t ∧ Moves s t := by
  unfold execLoadExpiry
  split
  · split
    · rename_i found
      obtain ⟨on, kind, -⟩ := State.expiring_some found
      exact ⟨_, rfl, .of_event (.of (.lapseLoad s _ (State.reservationOn_some on).1 kind))⟩
    · exact ⟨s, rfl, .refl⟩
  · exact ⟨s, rfl, .refl⟩

theorem execDischargeExpiry_moves (n : Nat) (s : State) :
    ∃ t, execDischargeExpiry n s = .next t ∧ Moves s t := by
  unfold execDischargeExpiry
  split
  · split
    · rename_i found
      obtain ⟨on, kind, -⟩ := State.expiring_some found
      exact ⟨_, rfl, .of_event (.of (.lapseDischarge s _ (State.reservationOn_some on).1 kind))⟩
    · exact ⟨s, rfl, .refl⟩
  · exact ⟨s, rfl, .refl⟩

theorem execTankReportExpiry_moves (s : State) : ∃ t, execTankReportExpiry s = .next t ∧ Moves s t := by
  unfold execTankReportExpiry
  split
  · exact ⟨_, rfl, .of_event (.of (s.withTank_change _))⟩
  · exact ⟨s, rfl, .refl⟩

theorem execSample_moves (code : BitVec 12) (s : State) : ∃ t, execSample code s = .next t ∧ Moves s t := by
  unfold execSample
  split
  · exact ⟨_, rfl, .of_event (s.takeSample_changes _)⟩
  · exact ⟨s, rfl, .refl⟩

theorem execClockAdvance_moves (s : State) : ∃ t, execClockAdvance s = .next t ∧ Moves s t := by
  unfold execClockAdvance
  split
  · rename_i h
    exact ⟨_, rfl, .of_event (State.setNow_changes h.2 (Nat.min_le_left _ _)).1⟩
  · exact ⟨s, rfl, .refl⟩

/-! Sections -/

theorem execMoveTimerExpiry_moves (n : Nat) (s : State) :
    ∃ t, execMoveTimerExpiry n s = .next t ∧ Moves s t := by
  unfold execMoveTimerExpiry
  split
  · exact ⟨s, rfl, .refl⟩
  · rename_i c found
    split
    · rename_i due
      refine ⟨_, rfl, .of_event (.of (.sect s n _ fun d hd => ?_))⟩
      obtain rfl : d = c := by simpa using hd.symm.trans (State.fittedSection_some found).2
      exact Sect.toFault_steps _ d (.inl (by simp [Sect.holds, due.2.1]))
    · exact ⟨s, rfl, .refl⟩

theorem State.setInputs_changes (s : State) {n : Nat} (i : Inputs) (h : sectionNumberOk n = true) :
    Changes s (s.setInputs n i) := by
  simp only [sectionNumberOk, decide_eq_true_eq] at h
  refine .of (.inputs s _ fun wf => ?_)
  split
  · exact Table.wf_erase _ _ _ wf
  · exact Table.wf_set _ _ _ _ wf h.1 h.2

theorem State.inputsMoving_changes {s : State} {n : Nat} {c : Sect} (hc : s.sections.get n = some c)
    (moving : c.state = .moving) : Changes s (s.inputsMoving n c).1 := by
  have fault (cause : FaultCause) : Changes s (s.onSection n (Sect.toFault cause)) := by
    refine .of (.sect s n _ fun d hd => ?_)
    obtain rfl : d = c := by simpa using hd.symm.trans hc
    exact Sect.toFault_steps _ d (.inl (by simp [Sect.holds, moving]))
  unfold State.inputsMoving
  dsimp only
  split
  · split
    · exact .refl
    · exact fault _
  · split
    · exact State.settleAt_changes _ hc fun ok => by simp_all [Sect.ok]
    · split
      · exact .refl
      · exact fault _

theorem State.inputsHeld_changes {s : State} {n : Nat} {c : Sect} (hc : s.sections.get n = some c)
    (held : c.holds = true) : Changes s (s.inputsHeld n c).1 := by
  unfold State.inputsHeld
  split
  · exact .refl
  · exact State.sensorFault_changes _ hc held

theorem State.inputsTaken_changes {s : State} {n : Nat} {c : Sect} (hc : s.sections.get n = some c) :
    Changes s (s.inputsTaken n c).1 := by
  unfold State.inputsTaken
  split
  case h_1 state => exact State.inputsMoving_changes hc state
  case h_2 state => exact State.inputsHeld_changes hc (by simp [Sect.holds, state])
  case h_3 state => exact State.inputsHeld_changes hc (by simp [Sect.holds, state])
  case h_4 => exact .refl

theorem execSectionInputChange_moves {n : Nat} (i : Inputs) (s : State) (h : sectionNumberOk n = true) :
    ∃ t, execSectionInputChange n i s = .next t ∧ Moves s t := by
  have pins := s.setInputs_changes i h
  unfold execSectionInputChange
  simp only [h, Bool.not_true, Bool.false_eq_true, if_false]
  split
  · split
    · rename_i found
      have hc := (State.fittedSection_some found).2
      exact ⟨_, rfl, .of_event (pins.trans (State.inputsTaken_changes (by simpa using hc)))⟩
    · exact ⟨_, rfl, Changes.moves pins⟩
  · exact ⟨_, rfl, Changes.moves pins⟩

/-! Power and starts -/

theorem Sect.powerDown_steps (c : Sect) : c.Steps False c.powerDown := by
  unfold Sect.powerDown
  split
  · rename_i moving
    exact Sect.toFault_steps _ c (.inl (by simp [Sect.holds, moving]))
  · exact ⟨fun ok origin => ⟨ok, origin⟩, by cases h : c.holds <;> simp⟩

theorem Monitor.stopped_ok {m : Monitor} : m.stopped.ok = true := by
  simp [Monitor.ok_iff, Monitor.stopped]

theorem State.enterPowerDown_moves (s : State) : Moves s s.enterPowerDown := by
  have sects := Changes.of (.sects s Sect.powerDown Sect.powerDown_steps)
  have monitor := sects.tail (.monitor _ s.monitor.stopped (fun _ => Monitor.stopped_ok) id fun _ => .inl rfl)
  have control := monitor.tail (.control _
    { s.control with down := true, statesBefore := s.sections.mapAll (·.state) } rfl)
  exact (Changes.moves control).tail (.commit _)

theorem State.setPowerFail_changes (s : State) (level : Bool) : Changes s (s.setPowerFail level) :=
  .of (.control s _ rfl)

theorem execPowerFail_moves (s : State) : ∃ t, execPowerFail s = .next t ∧ Moves s t := by
  have pin := Changes.moves (s.setPowerFail_changes true)
  unfold execPowerFail
  split
  · exact ⟨_, rfl, pin.trans (State.enterPowerDown_moves _)⟩
  · exact ⟨_, rfl, pin⟩

theorem State.rereadReady_changes (sts : List Station) (s : State) :
    Changes s (s.rereadReady sts).1 := by
  induction sts generalizing s with
  | nil => exact .refl
  | cons st rest ih =>
    unfold State.rereadReady
    dsimp only
    split
    · exact ih s
    · exact (s.takeReady_changes st _).trans (ih _)

theorem State.recheckSections_changes (ns : List Nat) (s : State) : Changes s (s.recheckSections ns) := by
  induction ns generalizing s with
  | nil => exact .refl
  | cons n rest ih =>
    unfold State.recheckSections
    split
    · rename_i c found
      split
      · rename_i h
        unfold State.compareInputs
        split
        · exact ih s
        · exact (State.sensorFault_changes _ (State.fittedSection_some found).2 h.2).trans (ih _)
      · exact ih s
    · exact ih s

theorem execPowerRestored_moves (s : State) : ∃ t, execPowerRestored s = .next t ∧ Moves s t := by
  unfold execPowerRestored
  split
  · have up := Changes.of (.control s
      { s.control with down := false, powerFailInput := false, statesBefore := [] } rfl)
    exact ⟨_, rfl, .of_event ((up.trans (State.rereadReady_changes allStations _)).trans
      (State.recheckSections_changes _ _))⟩
  · exact ⟨_, rfl, Changes.moves (s.setPowerFail_changes false)⟩

theorem execStart_moves (strap : StartStrap) (rates : BitVec 3) (s : State) :
    ∃ t, execStart strap rates s = .next t ∧ Moves s t := by
  have up : Moves s (((s.started strap rates).1.send ((s.started strap rates).1.modeNotice
      (s.started strap rates).2)).commit) :=
    ((Relation.ReflTransGen.single (.start s strap rates)).trans
      (Changes.moves (State.send_changes _ _))).tail (.commit _)
  unfold execStart
  dsimp only
  split
  · exact ⟨_, rfl, up.trans (State.enterPowerDown_moves _)⟩
  · exact ⟨_, rfl, up⟩

theorem StationRow.second_quietOk (r : StationRow) : r.second.quietOk := by
  unfold StationRow.quietOk StationRow.second
  cases e : r.quiet <;> simp [Config.quietLimit]

theorem Sect.second_steps (c : Sect) : c.Steps False c.second := by
  unfold Sect.second
  split
  · refine ⟨fun ok origin => ?_, .inr (.inl (by simp_all [Sect.holds]))⟩
    simp_all [Sect.ok, Sect.originOk]
    omega
  · exact ⟨fun ok origin => ⟨ok, origin⟩, by cases h : c.holds <;> simp⟩

theorem State.agedTank_change (s : State) :
    Change s { s with monitor := { s.monitor with tank := s.monitor.tank.map TankReport.second } } := by
  have same : ({ s.monitor with tank := s.monitor.tank.map TankReport.second } : Monitor).state =
      s.monitor.state := by
    unfold Monitor.state
    cases e : s.monitor.tank <;> simp [TankReport.second, Monitor.railed]
  refine .monitor s _ (fun ok => ?_) id .inl
  rw [Monitor.ok_iff] at ok ⊢
  rwa [same]

theorem execTimeBaseSecond_moves (s : State) : ∃ t, execTimeBaseSecond s = .next t ∧ Moves s t := by
  unfold execTimeBaseSecond
  split
  · have stations := Changes.of (.stations s (PerStation.of fun st => (s.stations.get st).second)
      fun st _ => by rw [PerStation.get_of]; exact StationRow.second_quietOk _)
    have tank := stations.tail (State.agedTank_change _)
    refine ⟨_, rfl, ?_⟩
    by_cases run : s.mode = .run <;> by_cases plan : s.planMode = true
    · rw [if_pos run, if_pos plan]
      exact Changes.moves ((tank.tail (.aged _)).tail (.sects _ Sect.second Sect.second_steps))
    · exact absurd (State.planMode_of_run run) plan
    · rw [if_neg run, if_pos plan]
      exact Changes.moves (tank.tail (.sects _ Sect.second Sect.second_steps))
    · rw [if_neg run, if_neg plan]
      exact Changes.moves tank
  · exact ⟨s, rfl, .refl⟩

/-! Every command -/

/-- Every command with operands the module has answers a next state, a chain of moves away. -/
theorem exec_moves {c : Instr} (h : c.wf = true) (s : State) : ∃ t, exec c s = .next t ∧ Moves s t := by
  cases c with
  | defLane st => exact State.takeKind_moves fun p t _ => handleDefLane_lawful st p t
  | defZone st => exact State.takeKind_moves fun p t _ => handleDefZone_lawful st p t
  | defRamp st => exact State.takeKind_moves fun p t _ => handleDefRamp_lawful st p t
  | defSection st => exact State.takeKind_moves fun p t _ => handleDefSection_lawful st p t
  | defShip st => exact State.takeKind_moves fun p t _ => handleDefShip_lawful st p t
  | sealPlan st => exact State.takeKind_moves fun p t _ => handleSeal_lawful st p t
  | clearPlan st => exact State.takeKind_moves fun p t w => handleClearPlan_lawful st p w
  | band st => exact State.takeKind_moves fun p t _ => handleBand_lawful st p t
  | heelModel st => exact State.takeKind_moves fun p t _ => handleHeelModel_lawful st p t
  | tanks st => exact State.takeKind_moves fun p t _ => handleTanks_lawful st p t
  | releaseStop st => exact State.takeKind_moves fun p t _ => handleReleaseStop_lawful st p t
  | timeout st => exact State.takeKind_moves fun p t _ => handleTimeout_lawful st p t
  | cutoff st => exact State.takeKind_moves fun p t w => handleCutoff_lawful st p w
  | clock st => exact State.takeKind_moves fun p t w => handleClock_lawful st p w
  | resume st => exact State.takeKind_moves fun p t _ => handleResume_lawful st p t
  | linkReset st => exact execLinkReset_moves st s
  | suspendRamp st => exact State.takeKind_moves fun p t _ => setSuspended_lawful true st p t
  | resumeRamp st => exact State.takeKind_moves fun p t _ => setSuspended_lawful false st p t
  | move st =>
    exact State.takeKind_moves fun p t _ => sectionRequest_lawful fun _ _ hc => moveSection_lawful _ hc
  | cancelMove st =>
    exact State.takeKind_moves fun p t _ => sectionRequest_lawful fun _ _ hc => cancelSection_lawful hc
  | clearFault st =>
    exact State.takeKind_moves fun p t _ => sectionRequest_lawful fun _ _ hc => clearSection_lawful hc
  | announce st => exact State.takeKind_moves fun p t _ => handleAnnounce_lawful st p t
  | withdraw st => exact State.takeKind_moves fun p t _ => handleWithdraw_lawful st p t
  | setPriority st => exact State.takeKind_moves fun p t _ => handleSetPriority_lawful st p t
  | setMask st => exact State.takeKind_moves fun p t _ => handleSetMask_lawful st p t
  | arrive st => exact State.takeKind_moves fun p t _ => handleArrive_lawful st p t
  | lashed st => exact State.takeKind_moves fun p t _ => handleLashed_lawful st p t
  | backout st => exact State.takeKind_moves fun p t _ => handleBackout_lawful st p t
  | sendBack st => exact State.takeKind_moves fun p t _ => handleSendBack_lawful st p t
  | unlash st => exact State.takeKind_moves fun p t _ => handleUnlash_lawful st p t
  | offloaded st => exact State.takeKind_moves fun p t _ => handleOffloaded_lawful st p t
  | keep st => exact State.takeKind_moves fun p t _ => handleKeep_lawful st p t
  | closeLane st =>
    exact State.takeKind_moves fun p t _ => laneRequest_lawful fun n l _ => setClosed_lawful true t n l
  | openLane st =>
    exact State.takeKind_moves fun p t _ => laneRequest_lawful fun n l _ => setClosed_lawful false t n l
  | verify st =>
    exact State.takeKind_moves fun p t _ => laneRequest_lawful fun _ _ lane => verifyLane_lawful lane
  | readLane st => exact State.takeKind_moves fun p t _ => handleReadLane_lawful st p t
  | readUnit st => exact State.takeKind_moves fun p t _ => handleReadUnit_lawful st p t
  | readAccount st => exact State.takeKind_moves fun p t _ => handleReadAccount_lawful st p t
  | readState st => exact State.takeKind_moves fun p t _ => handleReadState_lawful st p t
  | ident st => exact State.takeKind_moves fun p t _ => handleIdent_lawful st p t
  | subscribe st => exact State.takeKind_moves fun p t _ => handleSubscribe_lawful st p t
  | unknownMessageKind st => exact execUnknownMessageKind_moves st s
  | frameReceived st bytes => exact execFrameReceived_moves st bytes s
  | interbyteTimeout st => exact execInterbyteTimeout_moves st s
  | frameSent st => exact execFrameSent_moves st s
  | lineBreak st => exact execLineBreak_moves st s
  | lineReadyChange st asserted => exact execLineReadyChange_moves st asserted s
  | quietLimit st => exact execQuietLimit_moves st s
  | loadExpiry lane => exact execLoadExpiry_moves lane s
  | dischargeExpiry lane => exact execDischargeExpiry_moves lane s
  | tankReportExpiry => exact execTankReportExpiry_moves s
  | sample code => exact execSample_moves code s
  | clockAdvance => exact execClockAdvance_moves s
  | moveTimerExpiry sect => exact execMoveTimerExpiry_moves sect s
  | sectionInputChange sect levels => exact execSectionInputChange_moves levels s h
  | powerFail => exact execPowerFail_moves s
  | powerRestored => exact execPowerRestored_moves s
  | resetAsserted => exact ⟨_, rfl, Changes.moves (.of (.control s _ rfl))⟩
  | start strap rates => exact execStart_moves strap rates s
  | planLockKeyChange locked => exact ⟨_, rfl, Changes.moves (.of (.control s _ rfl))⟩
  | timeBaseSecond => exact execTimeBaseSecond_moves s
  | breakEnd st => exact execBreakEnd_moves st s
  | supplyLoss cutOff => exact ⟨_, rfl, .single (.loss s cutOff)⟩

theorem exec_sectionInputChange_fault {n : Nat} (i : Inputs) (s : State) (h : sectionNumberOk n = false) :
    exec (.sectionInputChange n i) s = .fault (.noSuchTerminal n) := by
  change execSectionInputChange n i s = _
  simp [execSectionInputChange, h]

/-- The operands outside the module's terminals that a command other than a section input carries change
nothing of what a command does. -/
theorem exec_next_moves {c : Instr} {s t : State} (h : exec c s = .next t) : Moves s t := by
  have from_ : (∃ u, exec c s = .next u ∧ Moves s u) → Moves s t := fun ⟨u, hu, moves⟩ => by
    cases h.symm.trans hu
    exact moves
  by_cases wf : c.wf = true
  · exact from_ (exec_moves wf s)
  · cases c with
    | loadExpiry lane => exact from_ (execLoadExpiry_moves lane s)
    | dischargeExpiry lane => exact from_ (execDischargeExpiry_moves lane s)
    | moveTimerExpiry sect => exact from_ (execMoveTimerExpiry_moves sect s)
    | sectionInputChange n i =>
      rw [exec_sectionInputChange_fault i s (by simpa [Instr.wf] using wf)] at h
      cases h
    | _ => exact absurd rfl wf

/-- One step, with the queue of commands set aside: every invariant that moves keep is kept by a step. -/
theorem step_keeps {I : State → Prop} (move : ∀ {s t : State}, Move s t → I s → I t)
    (queue : ∀ (s : State) (q : List Instr), I s → I { s with pending := q }) {s t : State} (hs : I s)
    (h : step s = .next t) : I t := by
  unfold step at h
  split at h
  · cases h
    exact hs
  · rename_i c rest _
    exact Moves.keeps move (exec_next_moves h) (queue s rest hs)

end Sys2Proof.Machine

/-! The queue of commands and the numbered stores. -/

namespace Sys2Proof.Machine

/-! What no change and no pass touches -/

/-- The image and the queue of commands are left to the image writes and to the steps. -/
structure Untouched (s t : State) : Prop where
  store : t.store = s.store
  pending : t.pending = s.pending

theorem State.shutOut_fold (ws : List Waiting) (s : State) :
    ws.foldl (fun t w => t.setUnitState w.booking .excluded) s =
      { s with register := (ws.foldl (fun t w => t.setUnitState w.booking .excluded) s).register } := by
  induction ws generalizing s with
  | nil => rfl
  | cons w ws ih =>
    rw [List.foldl_cons, ih]
    rfl

/-- The Waiting List empties and the register's records take their states; nothing else changes. -/
theorem State.shutOutAll_eq (s : State) :
    s.shutOutAll = { s with register := s.shutOutAll.register, waiting := [] } := by
  unfold State.shutOutAll
  rw [State.shutOut_fold]

/-- A record joins or replaces one; nothing else changes. -/
theorem State.putRecord_eq (s : State) (u : UnitRecord) :
    s.putRecord u = { s with register := (s.putRecord u).register } := by
  unfold State.putRecord
  split <;> rfl

theorem Change.untouched {s t : State} (h : Change s t) : Untouched s t := by
  cases h with
  | shutOut hm =>
    rw [State.shutOutAll_eq]
    exact ⟨rfl, rfl⟩
  | announce u =>
    rw [State.putRecord_eq]
    exact ⟨rfl, rfl⟩
  | pass h => exact ⟨s.runPass_keeps.store, s.runPass_keeps.pending⟩
  | _ => exact ⟨rfl, rfl⟩

/-! A warm start, step by step -/

theorem State.onSection_eq (s : State) (n : Nat) (f : Sect → Sect) :
    s.onSection n f = { s with sections := s.sections.modify n f } := rfl

theorem State.sensorFault_eq (s : State) (n : Nat) (cause : FaultCause) :
    s.sensorFault n cause = { s with sections := (s.sensorFault n cause).sections } := by
  unfold State.sensorFault
  split <;> rfl

theorem State.warmSection_eq (s : State) (n : Nat) (c : Sect) :
    s.warmSection n c = { s with sections := (s.warmSection n c).sections } := by
  have held : s.warmHeld n c = { s with sections := (s.warmHeld n c).sections } := by
    unfold State.warmHeld
    split
    · rfl
    · exact State.sensorFault_eq ..
  unfold State.warmSection
  split
  · rfl
  · rfl
  · split
    · exact State.sensorFault_eq ..
    · exact held
  · exact held

/-- The sections alone are settled by R166 step 3. -/
theorem State.warmSections_eq (ns : List Nat) (s : State) :
    s.warmSections ns = { s with sections := (s.warmSections ns).sections } := by
  induction ns generalizing s with
  | nil => rfl
  | cons n rest ih =>
    unfold State.warmSections
    split
    · rw [ih, State.warmSection_eq]
    · exact ih s

theorem State.started_pending (s : State) (strap : StartStrap) (rates : BitVec 3) :
    (s.started strap rates).1.pending = s.pending := by
  unfold State.started
  split
  · rfl
  · split
    · simp only [State.warmStart, State.reviseFrom]
      rw [State.warmSections_eq]
      rfl
    · rfl

theorem Move.pending {s t : State} (h : Move s t) : t.pending = s.pending := by
  cases h with
  | change h => exact h.untouched.pending
  | commit => rfl
  | start strap rates => exact s.started_pending strap rates
  | loss cutOff => rfl

/-- Settles O2: every command of the table is a chain of moves, and no move touches the queue. -/
theorem wellFormedCommandsAnswer : Obligations.WellFormedCommandsAnswer := by
  unfold Obligations.WellFormedCommandsAnswer
  refine ⟨fun c s wf => ?_, fun n levels s => exec_sectionInputChange_fault levels s⟩
  obtain ⟨t, next, moves⟩ := exec_moves wf s
  exact ⟨t, next, Moves.keeps (I := fun u => u.pending = s.pending)
    (fun m h => m.pending.trans h) moves rfl⟩

/-- Settles O1. -/
theorem stepTakesTheFrontCommand : Obligations.StepTakesTheFrontCommand := by
  unfold Obligations.StepTakesTheFrontCommand
  refine ⟨fun s c rest h => ?_, fun s h => ?_⟩ <;> simp [step, h]


/-! Canonical stores -/

theorem State.tablesOk_iff (s : State) : s.tablesOk = true ↔
    s.lanes.wf Config.laneCount = true ∧ s.zones.wf Config.zoneCount = true ∧
      s.ramps.wf Config.rampCount = true ∧ s.sections.wf Config.sectionCount = true ∧
      s.inputs.wf Config.sectionCount = true := by
  simp [State.tablesOk, and_assoc]

/-- The tables of a state under the same numbers. -/
structure SameNumbers (s t : State) : Prop where
  lanes : t.lanes.map (·.1) = s.lanes.map (·.1)
  zones : t.zones.map (·.1) = s.zones.map (·.1)
  ramps : t.ramps.map (·.1) = s.ramps.map (·.1)
  sections : t.sections.map (·.1) = s.sections.map (·.1)
  inputs : t.inputs = s.inputs

theorem SameNumbers.tablesOk {s t : State} (h : SameNumbers s t) : t.tablesOk = s.tablesOk := by
  unfold State.tablesOk
  rw [Table.wf_congr _ _ _ h.lanes, Table.wf_congr _ _ _ h.zones, Table.wf_congr _ _ _ h.ramps,
    Table.wf_congr _ _ _ h.sections, h.inputs]

theorem lanesResettled.numbers {a b : Table Lane} (h : lanesResettled a b) :
    b.map (·.1) = a.map (·.1) := by
  induction h with
  | nil => rfl
  | cons one _ ih => simp [one.1, ih]

theorem lanesGrown.numbers {a b : Table Lane} (h : lanesGrown a b) : b.map (·.1) = a.map (·.1) := by
  induction h with
  | nil => rfl
  | cons one _ ih => simp [one.1, ih]

@[simp] theorem onZone_numbers (zones : Table Zone) (z : Option Nat) (f : Zone → Zone) :
    (onZone zones z f).map (·.1) = zones.map (·.1) := by
  cases z <;> simp [onZone]

theorem Table.numbers_of_mapAll {α β : Type} {a b : Table α} {f : α → β} (h : a.mapAll f = b.mapAll f) :
    a.map (·.1) = b.map (·.1) := by
  simpa only [Table.keys_mapAll] using congrArg (List.map (·.1)) h

theorem PassGrows.sameNumbers {s t : State} (h : PassGrows s t) (k : PassKeeps s t) : SameNumbers s t :=
  ⟨h.lanes.numbers, Table.numbers_of_mapAll h.zones, Table.numbers_of_mapAll h.ramps,
    congrArg _ k.sections, k.inputs⟩

/-! The tables an operation changes -/

section
variable (s : State) (n : Nat) (d : Int) (z : Option Nat) (c : CheckRecord) (u : UnitBody) (r : Reservation)

theorem State.opPlace_lanes (e : Entry) : (s.opPlace n e d z).lanes = s.lanes.modify n fun l =>
    { l with entries := l.entries ++ [e] } := rfl

theorem State.opStow_lanes : (s.opStow n d z).lanes = s.lanes.modify n fun l =>
    { l with entries := setLast l.entries .stowed, mass := l.mass + s.lastMass n } := rfl

theorem State.opStow_zones : (s.opStow n d z).zones = onZone s.zones z (Zone.confirm (s.lastMass n)) := rfl

theorem State.opBackOut_lanes : (s.opBackOut n d z).lanes = s.lanes.modify n fun l =>
    { l with entries := l.entries.dropLast } := rfl

theorem State.opBackOut_zones :
    (s.opBackOut n d z).zones = onZone s.zones z (Zone.dropPending (s.lastMass n)) := rfl

theorem State.opOffload_lanes : (s.opOffload n d z).lanes = s.lanes.modify n fun l =>
    { l with entries := l.entries.dropLast, mass := l.mass - s.lastMass n } := rfl

theorem State.opOffload_zones :
    (s.opOffload n d z).zones = onZone s.zones z (Zone.unload (s.lastMass n)) := rfl

theorem State.opKeep_lanes : (s.opKeep n d).lanes = s.lanes.modify n fun l =>
    { l with entries := setLast l.entries .stowed } := rfl

theorem State.opRelease_lanes : (s.opRelease n d).lanes = s.lanes.modify n fun l =>
    { l with entries := setLast l.entries .leaving } := rfl

/-- The lane of an expired LOAD reservation (Table 2-2, Lapse load). -/
def Lane.lapseLoad (ramp : Nat) (d : Int) (z : Option Nat) (l : Lane) : Lane :=
  match l.entries.getLast? with
  | some e =>
    { l with
      entries := l.entries.dropLast
      check := some { booking := e.booking, ramp := ramp, delta := d, zone := z, offset := e.offset,
                      content := .load e.unit } }
  | none => l

/-- The lane of an expired DISCHARGE reservation (Table 2-2, Lapse discharge). -/
def Lane.lapseDischarge (ramp : Nat) (d : Int) (z : Option Nat) (l : Lane) : Lane :=
  match l.entries.getLast? with
  | some e =>
    { l with
      entries := setLast l.entries .stowed
      check := some { booking := e.booking, ramp := ramp, delta := d, zone := z, offset := e.offset,
                      content := .discharge } }
  | none => l

theorem State.opLapseLoad_lanes (ramp : Nat) :
    (s.opLapseLoad n ramp d z).lanes = s.lanes.modify n (Lane.lapseLoad ramp d z) := rfl

theorem State.opLapseDischarge_lanes (ramp : Nat) :
    (s.opLapseDischarge n ramp d z).lanes = s.lanes.modify n (Lane.lapseDischarge ramp d z) := rfl

theorem State.opStowLate_lanes : (s.opStowLate n c u).lanes = s.lanes.modify n fun l =>
    { l with
      entries := l.entries ++ [{ booking := c.booking, unit := u, offset := c.offset, state := .stowed }]
      check := none
      mass := l.mass + u.mass } := rfl

theorem State.opStowLate_zones :
    (s.opStowLate n c u).zones = onZone s.zones c.zone (Zone.confirm u.mass) := rfl

theorem State.opOffloadLate_lanes : (s.opOffloadLate n c).lanes = s.lanes.modify n fun l =>
    { l with entries := l.entries.dropLast, check := none, mass := l.mass - s.lastMass n } := rfl

theorem State.opOffloadLate_zones :
    (s.opOffloadLate n c).zones = onZone s.zones c.zone (Zone.unload (s.lastMass n)) := rfl

theorem State.opDropLoadCheck_lanes :
    (s.opDropLoadCheck n c u).lanes = s.lanes.modify n fun l => { l with check := none } := rfl

theorem State.opDropLoadCheck_zones :
    (s.opDropLoadCheck n c u).zones = onZone s.zones c.zone (Zone.dropPending u.mass) := rfl

theorem State.opDropDischargeCheck_lanes :
    (s.opDropDischargeCheck n c).lanes = s.lanes.modify n fun l => { l with check := none } := rfl

theorem State.endReservation_ramps : (s.endReservation r).ramps =
    s.ramps.modify r.ramp fun p => { p with count := p.count - 1 } := rfl

theorem State.addReservation_ramps : (s.addReservation r).ramps =
    s.ramps.modify r.ramp fun p => { p with count := p.count + 1 } := rfl

end

theorem sealed_numbers (s : State) : SameNumbers s (sealed s) := by
  refine ⟨Table.keys_mapAll s.lanes _,
    Table.keys_mapAll s.zones fun z => { z with confirmed := 0, pendingLoad := 0 }, ?_, by simp [sealed], rfl⟩
  exact Table.keys_mapAll s.ramps fun r => newRamp r.reach

theorem Change.tablesOk {s t : State} (h : Change s t) (hs : s.tablesOk = true) : t.tablesOk = true := by
  have wf := (State.tablesOk_iff s).mp hs
  have numbers (k : SameNumbers s t) : t.tablesOk = true := k.tablesOk.trans hs
  cases h with
  | inputs u h => exact (State.tablesOk_iff _).mpr ⟨wf.1, wf.2.1, wf.2.2.1, wf.2.2.2.1, h wf.2.2.2.2⟩
  | defLanes u _ h => exact (State.tablesOk_iff _).mpr ⟨h wf.1, wf.2⟩
  | defZones u _ h => exact (State.tablesOk_iff _).mpr ⟨wf.1, h wf.2.1, wf.2.2⟩
  | defRamps u _ h => exact (State.tablesOk_iff _).mpr ⟨wf.1, wf.2.1, h wf.2.2.1, wf.2.2.2⟩
  | defSections u _ h =>
    exact (State.tablesOk_iff _).mpr ⟨wf.1, wf.2.1, wf.2.2.1, h wf.2.2.2.1, wf.2.2.2.2⟩
  | sealPlan => exact numbers (sealed_numbers s)
  | erase => exact (State.tablesOk_iff _).mpr ⟨rfl, rfl, rfl, rfl, wf.2.2.2.2⟩
  | clear => exact (State.tablesOk_iff _).mpr ⟨rfl, rfl, rfl, rfl, wf.2.2.2.2⟩
  | shutOut =>
    rw [State.shutOutAll_eq]
    exact hs
  | lanes u h => exact numbers ⟨h.numbers, rfl, rfl, rfl, rfl⟩
  | sect n f => exact numbers ⟨rfl, rfl, rfl, Table.keys_modify .., rfl⟩
  | sects f => exact numbers ⟨rfl, rfl, rfl, Table.keys_mapAll .., rfl⟩
  | announce u =>
    rw [State.putRecord_eq]
    exact hs
  | pass h => exact numbers (s.runPass_grows.sameNumbers s.runPass_keeps)
  | ramp r f => exact numbers ⟨rfl, rfl, Table.keys_modify .., rfl, rfl⟩
  | reserve ramp row unit n l =>
    exact numbers ((State.reserveLoad_grows ..).sameNumbers (State.reserveLoad_keeps ..))
  | stow r => exact numbers ⟨by simp [State.opStow_lanes], by simp [State.opStow_zones],
      by simp [State.endReservation_ramps], rfl, rfl⟩
  | backOut r => exact numbers ⟨by simp [State.opBackOut_lanes], by simp [State.opBackOut_zones],
      by simp [State.endReservation_ramps], rfl, rfl⟩
  | offload r => exact numbers ⟨by simp [State.opOffload_lanes], by simp [State.opOffload_zones],
      by simp [State.endReservation_ramps], rfl, rfl⟩
  | keep r => exact numbers ⟨by simp [State.opKeep_lanes], rfl, by simp [State.endReservation_ramps],
      rfl, rfl⟩
  | release => exact numbers ⟨by simp [State.opRelease_lanes], rfl,
      by simp [State.addReservation_ramps], rfl, rfl⟩
  | lapseLoad r => exact numbers ⟨by simp [State.opLapseLoad_lanes], rfl,
      by simp [State.endReservation_ramps], rfl, rfl⟩
  | lapseDischarge r => exact numbers ⟨by simp [State.opLapseDischarge_lanes], rfl,
      by simp [State.endReservation_ramps], rfl, rfl⟩
  | stowLate => exact numbers ⟨by simp [State.opStowLate_lanes], by simp [State.opStowLate_zones],
      rfl, rfl, rfl⟩
  | offloadLate => exact numbers ⟨by simp [State.opOffloadLate_lanes], by simp [State.opOffloadLate_zones],
      rfl, rfl, rfl⟩
  | dropLoad => exact numbers ⟨by simp [State.opDropLoadCheck_lanes], by simp [State.opDropLoadCheck_zones],
      rfl, rfl, rfl⟩
  | dropDischarge => exact numbers ⟨by simp [State.opDropDischargeCheck_lanes], rfl, rfl, rfl, rfl⟩
  | _ => exact hs

theorem Table.wf_iff_pairwise {α : Type} (last : Nat) (t : Table α) :
    t.wf last = true ↔ (0 :: t.map (·.1)).Pairwise (· < ·) ∧ ∀ p ∈ t, p.1 ≤ last := by
  have rising (lo : Nat) : t.risingAbove lo = true ↔ (lo :: t.map (·.1)).Pairwise (· < ·) := by
    induction t generalizing lo with
    | nil => simp [Table.risingAbove]
    | cons p rest ih =>
      simp only [Table.risingAbove, Bool.and_eq_true, decide_eq_true_eq, ih, List.map_cons,
        List.pairwise_cons, List.mem_cons, forall_eq_or_imp]
      refine ⟨fun ⟨h, k, l⟩ => ⟨⟨h, fun q hq => h.trans (k q hq)⟩, k, l⟩, fun ⟨⟨h, _⟩, k, l⟩ => ⟨h, k, l⟩⟩
  simp [Table.wf, rising]

/-- The lanes in service, each with one admitting ramp, stand under numbers of the lanes. -/
theorem State.admitting_wf {s : State} (h : s.lanes.wf Config.laneCount = true) :
    s.admitting.wf Config.laneCount = true := by
  rw [Table.wf_iff_pairwise] at h ⊢
  obtain ⟨rising, last⟩ := h
  have number {p : Nat × Lane} {q : Nat × Nat} (hq : (if p.2.inService then
      (s.reservationOn p.1).map fun r => (p.1, r.ramp) else none) = some q) : q.1 = p.1 := by
    split at hq
    · obtain ⟨r, -, rfl⟩ := Option.map_eq_some_iff.mp hq
      rfl
    · cases hq
  have sub : (s.admitting.map (·.1)).Sublist (s.lanes.map (·.1)) := by
    unfold State.admitting
    induction s.lanes with
    | nil => exact .slnil
    | cons p rest ih =>
      rw [List.filterMap_cons]
      split
      · exact ih.cons _
      · rename_i q hq
        rw [List.map_cons, List.map_cons, number hq]
        exact ih.cons_cons _
  refine ⟨rising.sublist (sub.cons_cons 0), fun q hq => ?_⟩
  obtain ⟨p, hp, eq⟩ := List.mem_filterMap.mp hq
  rw [number eq]
  exact last p hp

theorem State.image_tablesOk {s : State} (h : s.tablesOk = true) : s.image.tablesOk = true := by
  obtain ⟨lanes, zones, ramps, sections, -⟩ := (State.tablesOk_iff s).mp h
  simp only [Image.tablesOk, State.image, Table.wf_mapAll, lanes, zones, ramps, sections,
    State.admitting_wf lanes, Bool.and_true]

theorem State.storesOk_iff (s : State) :
    s.storesOk = true ↔ s.tablesOk = true ∧ s.store.image.tablesOk = true := by
  simp [State.storesOk]

theorem State.sensorFault_numbers (s : State) (n : Nat) (cause : FaultCause) :
    (s.sensorFault n cause).sections.map (·.1) = s.sections.map (·.1) := by
  unfold State.sensorFault
  split <;> simp [State.onSection_eq]

theorem State.warmSection_numbers (s : State) (n : Nat) (c : Sect) :
    (s.warmSection n c).sections.map (·.1) = s.sections.map (·.1) := by
  have held : (s.warmHeld n c).sections.map (·.1) = s.sections.map (·.1) := by
    unfold State.warmHeld
    split
    · simp [State.onSection_eq]
    · exact State.sensorFault_numbers ..
  unfold State.warmSection
  split
  · simp [State.onSection_eq]
  · rfl
  · split
    · exact State.sensorFault_numbers ..
    · exact held
  · exact held

theorem State.warmSections_numbers (ns : List Nat) (s : State) :
    (s.warmSections ns).sections.map (·.1) = s.sections.map (·.1) := by
  induction ns generalizing s with
  | nil => rfl
  | cons n rest ih =>
    unfold State.warmSections
    split
    · rw [ih, State.warmSection_numbers]
    · exact ih s

/-- The state of a warm start before its sections are settled (R166 steps 1 and 2). -/
def State.warmLoaded (s : State) (rates : BitVec 3) : State :=
  ((s.restored rates).warmLanes s.store.image.admitting).warmAccount

theorem State.warmStart_eq (s : State) (rates : BitVec 3) : s.warmStart rates =
    ((s.warmLoaded rates).warmSections ((s.restored rates).sections.map (·.1))).reviseFrom
      (s.restored rates) := rfl

theorem revisedLane_number (s0 s1 : State) (p : Nat × Lane) : (revisedLane s0 s1 p).1 = p.1 := by
  unfold revisedLane
  split
  · split <;> rfl
  · rfl

theorem State.warmStart_numbers (s : State) (rates : BitVec 3) :
    SameNumbers (s.restored rates) (s.warmStart rates) := by
  rw [State.warmStart_eq, State.reviseFrom, State.warmSections_eq]
  refine ⟨?_, ?_, rfl, State.warmSections_numbers _ _, rfl⟩
  · simp [State.warmLoaded, State.warmAccount, State.warmLanes, Function.comp_def, revisedLane_number]
  · simp [State.warmLoaded, State.warmAccount, State.warmLanes]

theorem State.started_tablesOk {s : State} (h : s.storesOk = true) (strap : StartStrap) (rates : BitVec 3) :
    (s.started strap rates).1.tablesOk = true := by
  obtain ⟨tables, image⟩ := (State.storesOk_iff s).mp h
  have inputs := ((State.tablesOk_iff s).mp tables).2.2.2.2
  have cold : (s.emptied rates).tablesOk = true :=
    (State.tablesOk_iff _).mpr ⟨rfl, rfl, rfl, rfl, inputs⟩
  unfold State.started
  split
  · exact cold
  · split
    · rw [(s.warmStart_numbers rates).tablesOk, State.tablesOk_iff]
      simp only [Image.tablesOk, Bool.and_eq_true] at image
      exact ⟨image.1.1.1.1, image.1.1.1.2, image.1.1.2, image.1.2, inputs⟩
    · exact cold

theorem State.started_store (s : State) (strap : StartStrap) (rates : BitVec 3) :
    (s.started strap rates).1.store = State.blank.store := by
  unfold State.started
  split
  · rfl
  · split
    · rw [State.warmStart_eq, State.reviseFrom, State.warmSections_eq]
      rfl
    · rfl

theorem Move.storesOk {s t : State} (h : Move s t) (hs : s.storesOk = true) : t.storesOk = true := by
  obtain ⟨tables, image⟩ := (State.storesOk_iff s).mp hs
  rw [State.storesOk_iff]
  cases h with
  | change h => exact ⟨h.tablesOk tables, by rw [h.untouched.store]; exact image⟩
  | commit => exact ⟨tables, State.image_tablesOk tables⟩
  | start strap rates =>
    refine ⟨State.started_tablesOk hs strap rates, ?_⟩
    rw [State.started_store]
    rfl
  | loss cutOff =>
    exact ⟨(State.tablesOk_iff _).mpr ⟨rfl, rfl, rfl, rfl, ((State.tablesOk_iff s).mp tables).2.2.2.2⟩,
      image⟩

/-- Settles O10: every move keeps the numbers of the tables rising and within their capacities. -/
theorem storesStayCanonical : Obligations.StoresStayCanonical :=
  fun _ _ => step_keeps Move.storesOk fun _ _ => id

end Sys2Proof.Machine

/-! Modes, the Heel Monitor, capacities and ranges: the invariants of spec/11 R164, spec/04 R67 to R72 and the
bounds of the lists and counters. -/

namespace Sys2Proof.Machine

/-! The pass, element by element -/

theorem State.evaluate_chosen_cases {s : State} {r : Ramp} {u : UnitBody} {n : Nat}
    (h : s.evaluate r u = .chosen n) : s.limitReached r = false ∧
      ∃ c, choose ((s.examine r u).filterMap fun x =>
        if x.2.2.isNone then some (s.candidate u x.1 x.2.1) else none) = some c ∧ c.lane = n := by
  unfold State.evaluate at h
  split at h
  · cases h
  · rename_i limit
    dsimp only at h
    split at h
    · rename_i c chosen
      cases h
      exact ⟨by simpa using limit, c, chosen, rfl⟩
    · cases h

theorem State.movements_lt_of_chosen {s : State} {r : Ramp} {u : UnitBody} {n : Nat}
    (h : s.evaluate r u = .chosen n) : s.movements.length < Config.reservations := by
  have := (State.evaluate_chosen_cases h).1
  simp only [State.limitReached, Bool.or_eq_false_iff, decide_eq_false_iff_not] at this
  omega

theorem State.passElement_examined (s : State) (w : Waiting) : Examined s w (s.passElement w).1 := by
  unfold State.passElement
  split
  · rename_i row unit _ rec
    split
    · exact .skipped
    · split
      · unfold State.failExamination
        split
        · exact .excluded
        · exact .retried _ (by omega)
      · rename_i fits
        split
        · exact .admitted row unit _ _ rec fits (by assumption)
        · exact .skipped
  · exact .skipped

/-- What every examination of an element keeps, a pass keeps. -/
theorem State.passOver_induct {I : State → Prop}
    (step : ∀ {s t : State} {w : Waiting}, Examined s w t → I s → I t) (ws : List Waiting) (s : State)
    (hs : I s) : I (s.passOver ws).1 := by
  induction ws generalizing s with
  | nil => exact hs
  | cons w rest ih => exact ih _ (step (s.passElement_examined w) hs)

theorem State.runPass_induct {I : State → Prop}
    (step : ∀ {s t : State} {w : Waiting}, Examined s w t → I s → I t) (s : State) (hs : I s) :
    I s.runPass.1 := by
  unfold State.runPass
  split
  · exact State.passOver_induct step s.waiting s hs
  · exact hs

/-! The mode and the seal -/

/-- What `State.modeOk` says of the state, the image apart. -/
structure State.Moded (s : State) : Prop where
  profile : s.control.work = .profile ↔ s.isSealed = false
  run : s.control.work = .run ∨ s.movements = [] ∧ s.waiting = []
  reached : s.clock.reached = true → s.waiting = []
  clock : s.isSealed = true ∨ s.clock.zero = true
  divergence : s.isSealed = true ∨ s.monitor.divergence = 0

theorem State.modeOk_iff (s : State) : s.modeOk = true ↔
    s.Moded ∧ (s.store.image.isSealed = true ∨ s.store.image.clock.zero = true) := by
  constructor
  · intro h
    simp only [State.modeOk, Bool.and_eq_true, Bool.or_eq_true, Bool.not_eq_true', beq_iff_eq,
      decide_eq_true_eq, List.isEmpty_iff] at h
    obtain ⟨⟨⟨⟨⟨profile, run⟩, reached⟩, clock⟩, image⟩, divergence⟩ := h
    refine ⟨⟨?_, run, fun r => reached.resolve_left (by simp [r]), clock, divergence⟩, image⟩
    cases e : s.isSealed <;> simp_all
  · rintro ⟨⟨profile, run, reached, clock, divergence⟩, image⟩
    simp only [State.modeOk, Bool.and_eq_true, Bool.or_eq_true, Bool.not_eq_true', beq_iff_eq,
      decide_eq_true_eq, List.isEmpty_iff]
    refine ⟨⟨⟨⟨⟨?_, run⟩, ?_⟩, clock⟩, image⟩, divergence⟩
    · cases e : s.isSealed <;> simp_all
    · cases e : s.clock.reached <;> simp_all

theorem State.work_of_profile {s : State} (h : s.mode = .profile) : s.control.work = .profile := by
  cases down : s.control.down <;> cases work : s.control.work <;> simp [State.mode, down, work] at h ⊢

theorem State.work_of_run {s : State} (h : s.mode = .run) : s.control.work = .run := by
  cases down : s.control.down <;> cases work : s.control.work <;> simp [State.mode, down, work] at h ⊢

theorem State.work_of_recovery {s : State} (h : s.mode = .recovery) : s.control.work = .recovery := by
  cases down : s.control.down <;> cases work : s.control.work <;> simp [State.mode, down, work] at h ⊢

theorem State.Moded.unsealed {s : State} (h : s.Moded) (m : s.mode = .profile) : s.isSealed = false :=
  h.profile.mp (State.work_of_profile m)

theorem State.Moded.sealed {s : State} (h : s.Moded) (m : s.planMode = true) : s.isSealed = true := by
  simp only [State.planMode, Bool.or_eq_true, decide_eq_true_eq] at m
  by_contra u
  have profile := h.profile.mpr (by simpa using u)
  rcases m with m | m
  · rw [State.work_of_run m] at profile
    cases profile
  · rw [State.work_of_recovery m] at profile
    cases profile

theorem Change.moded {s t : State} (h : Change s t) (hs : s.Moded) : t.Moded := by
  have sealed_of := hs.sealed
  obtain ⟨profile, run, reached, clock, divergence⟩ := hs
  cases h with
  | control c h =>
    exact ⟨by simpa only [h] using profile, by simpa only [h] using run, reached, clock, divergence⟩
  | run h =>
    have sealed : s.isSealed = true := by
      by_contra u
      have := (State.work_of_recovery h).symm.trans (profile.mpr (by simpa using u))
      cases this
    exact ⟨by simp [sealed], .inl rfl, reached, .inl sealed, .inl sealed⟩
  | sealPlan => exact ⟨by simp [Machine.sealed], .inl rfl, fun _ => rfl, .inl rfl, .inl rfl⟩
  | erase hm =>
    have u : s.isSealed = false := profile.mp (State.work_of_profile hm)
    exact ⟨⟨fun _ => rfl, fun _ => State.work_of_profile hm⟩, run, reached,
      .inr (clock.resolve_left (by simp [u])), .inr (divergence.resolve_left (by simp [u]))⟩
  | clear hm bare idle => exact ⟨⟨fun _ => rfl, fun _ => rfl⟩, .inr ⟨idle, rfl⟩, fun _ => rfl, .inr rfl, .inr rfl⟩
  | monitor m _ _ still =>
    refine ⟨profile, run, reached, clock, ?_⟩
    rcases divergence with d | d
    · exact .inl d
    · exact (still d).symm.imp sealed_of id
  | clock c hm h =>
    have sealed := sealed_of hm
    exact ⟨profile, run, fun r => reached (h r), .inl sealed, .inl sealed⟩
  | shutOut hm =>
    have sealed := sealed_of hm
    rw [State.shutOutAll_eq]
    exact ⟨profile, run.imp id fun e => ⟨e.1, rfl⟩, fun _ => rfl, .inl sealed, .inl sealed⟩
  | aged => exact ⟨profile, run.imp id fun e => ⟨by simp [e.1], e.2⟩, reached, clock, divergence⟩
  | announce u =>
    rw [State.putRecord_eq]
    exact ⟨profile, run, reached, clock, divergence⟩
  | withdraw b | sendBack b =>
    have drop (e : s.waiting = []) : (s.dropWaiting b).waiting = [] := by simp [State.dropWaiting, e]
    exact ⟨profile, run.imp id fun e => ⟨e.1, drop e.2⟩, fun r => drop (reached r), clock, divergence⟩
  | wait w hm shut =>
    exact ⟨profile, .inl (State.work_of_run hm), fun r => absurd r (by simp [shut]), clock, divergence⟩
  | reserve ramp row unit n l hm | release ramp row b f hm =>
    exact ⟨profile, .inl (State.work_of_run hm), reached, clock, divergence⟩
  | pass h =>
    have k := s.runPass_keeps
    have none (e : s.waiting = []) : s.runPass.1.waiting = [] := by rw [State.runPass_of_empty s e]; exact e
    have work : s.control.work = .run := State.work_of_run (by
      simp only [State.passAllowed, Bool.and_eq_true, decide_eq_true_eq] at h
      exact h.1)
    exact ⟨by rw [k.control, k.isSealed]; exact profile, .inl (by rw [k.control]; exact work),
      fun r => none (reached (by rw [← k.clock]; exact r)), by rw [k.isSealed, k.clock]; exact clock,
      by rw [k.isSealed, k.monitor]; exact divergence⟩
  | stow r hr | backOut r hr | offload r hr | keep r hr | lapseLoad r hr | lapseDischarge r hr =>
    refine ⟨profile, run.imp id fun e => ?_, reached, clock, divergence⟩
    rw [e.1] at hr
    cases hr
  | _ => exact ⟨profile, run, reached, clock, divergence⟩

/-- Everything a start leaves but for lanes, zones, sections and account (R165, R166). -/
structure Started (s t : State) (work : WorkMode) : Prop where
  work : t.control.work = work
  movements : t.movements = []
  waiting : t.waiting = []
  seqNext : t.seqNext = 1
  history : t.monitor.history = []
  rail : t.monitor.rail = 0
  qualified : t.monitor.qualified = 0
  divergence : t.monitor.divergence = 0
  stations : t.stations = State.blank.stations

theorem State.emptied_started (s : State) (rates : BitVec 3) : Started s (s.emptied rates) .profile :=
  ⟨rfl, rfl, rfl, rfl, rfl, rfl, rfl, rfl, rfl⟩

theorem State.warmStart_started (s : State) (rates : BitVec 3) : Started s (s.warmStart rates)
    (if s.store.image.isSealed then .recovery else .profile) := by
  rw [State.warmStart_eq, State.reviseFrom, State.warmSections_eq]
  exact ⟨rfl, rfl, rfl, rfl, rfl, rfl, rfl, rfl, rfl⟩

theorem State.warmStart_isSealed (s : State) (rates : BitVec 3) :
    (s.warmStart rates).isSealed = s.store.image.isSealed := by
  rw [State.warmStart_eq, State.reviseFrom, State.warmSections_eq]
  rfl

theorem State.warmStart_clock (s : State) (rates : BitVec 3) :
    (s.warmStart rates).clock = s.store.image.clock := by
  rw [State.warmStart_eq, State.reviseFrom, State.warmSections_eq]
  rfl

/-- A start leaves the emptied controller, or the image brought back where its word matches. -/
theorem State.started_cases {P : State → Prop} {s : State} (strap : StartStrap) (rates : BitVec 3)
    (cold : P (s.emptied rates)) (warm : s.store.intact = true → P (s.warmStart rates)) :
    P (s.started strap rates).1 := by
  unfold State.started
  split
  · exact cold
  · split
    · exact warm (by assumption)
    · exact cold

theorem State.emptied_moded (s : State) (rates : BitVec 3) : (s.emptied rates).Moded :=
  ⟨⟨fun _ => rfl, fun _ => rfl⟩, .inr ⟨rfl, rfl⟩, fun _ => rfl, .inr rfl, .inr rfl⟩

theorem State.warmStart_moded {s : State} (rates : BitVec 3)
    (h : s.store.image.isSealed = true ∨ s.store.image.clock.zero = true) : (s.warmStart rates).Moded := by
  have k := s.warmStart_started rates
  refine ⟨?_, .inr ⟨k.movements, k.waiting⟩, fun _ => k.waiting, ?_, .inr k.divergence⟩
  · rw [k.work, s.warmStart_isSealed]
    split <;> simp_all
  · rw [s.warmStart_isSealed, s.warmStart_clock]
    exact h

theorem Move.modeOk {s t : State} (h : Move s t) (hs : s.modeOk = true) : t.modeOk = true := by
  obtain ⟨moded, image⟩ := (State.modeOk_iff s).mp hs
  rw [State.modeOk_iff]
  cases h with
  | change h => exact ⟨h.moded moded, by rw [h.untouched.store]; exact image⟩
  | commit => exact ⟨⟨moded.profile, moded.run, moded.reached, moded.clock, moded.divergence⟩, moded.clock⟩
  | start strap rates =>
    refine ⟨State.started_cases strap rates (s.emptied_moded rates) fun _ => State.warmStart_moded rates image, ?_⟩
    rw [State.started_store]
    exact .inr rfl
  | loss cutOff =>
    exact ⟨⟨⟨fun _ => rfl, fun _ => rfl⟩, .inr ⟨rfl, rfl⟩, fun _ => rfl, .inr rfl, .inr rfl⟩, image⟩

/-- Settles O15: every move keeps the agreement of mode and seal. -/
theorem modeAgreesWithTheSeal : Obligations.ModeAgreesWithTheSeal :=
  fun _ _ => step_keeps Move.modeOk fun _ _ => id

/-! The Heel Monitor -/

theorem Change.monitor_ok {s t : State} (h : Change s t) (hs : s.monitor.ok = true) :
    t.monitor.ok = true := by
  cases h with
  | monitor m ok => exact ok hs
  | clear =>
    obtain ⟨history, rail, qualified, -, among, out⟩ := (Monitor.ok_iff _).mp hs
    exact (Monitor.ok_iff _).mpr ⟨history, rail, qualified, Nat.zero_le _, among,
      out.imp id fun zero => ⟨zero.1, rfl⟩⟩
  | shutOut =>
    rw [State.shutOutAll_eq]
    exact hs
  | announce u =>
    rw [State.putRecord_eq]
    exact hs
  | pass =>
    rw [s.runPass_keeps.monitor]
    exact hs
  | _ => exact hs

theorem Started.monitor_ok {s t : State} {work : WorkMode} (h : Started s t work) : t.monitor.ok = true :=
  (Monitor.ok_iff _).mpr ⟨by simp [h.history], by simp [h.rail], by simp [h.qualified],
    by simp [h.divergence], by simp [h.qualified], .inr ⟨h.qualified, h.divergence⟩⟩

theorem Move.monitor_ok {s t : State} (h : Move s t) (hs : s.monitor.ok = true) : t.monitor.ok = true := by
  cases h with
  | change h => exact h.monitor_ok hs
  | commit => exact hs
  | start strap rates =>
    exact State.started_cases strap rates (P := fun u => u.monitor.ok = true)
      (s.emptied_started rates).monitor_ok fun _ => (s.warmStart_started rates).monitor_ok
  | loss => rfl

/-! Capacities and ranges -/

/-- What `State.boundsOk` says of retained contents. -/
structure Image.Bounded (i : Image) : Prop where
  register : i.register.length ≤ Config.registerSize
  timeoutLo : 60 ≤ i.timeout
  timeoutHi : i.timeout ≤ 900
  now : i.clock.now ≤ Config.maxTime
  levels : ∀ p ∈ i.lanes, p.2.level ≤ 7
  masks : ∀ p ∈ i.ramps, p.2.mask ≤ 7
  band : bandInRange i.kp i.ks i.h = true
  heel : heelModelInRange i.kh i.offset i.tolerance = true

/-- What `State.boundsOk` says of the state, the image apart. -/
structure State.Bounded (s : State) : Prop where
  register : s.register.length ≤ Config.registerSize
  movements : s.movements.length ≤ Config.reservations
  waiting : s.waiting.length ≤ Config.waitingSize
  seqLo : 1 ≤ s.seqNext
  seqHi : s.seqNext ≤ Config.maxTime
  timeoutLo : 60 ≤ s.timeout
  timeoutHi : s.timeout ≤ 900
  now : s.clock.now ≤ Config.maxTime
  seconds : ∀ r ∈ s.movements, r.seconds ≤ 900
  retries : ∀ w ∈ s.waiting, w.retries ≤ 15
  levels : ∀ p ∈ s.lanes, p.2.level ≤ 7
  masks : ∀ p ∈ s.ramps, p.2.mask ≤ 7
  band : bandInRange s.account.kp s.account.ks s.account.h = true
  heel : heelModelInRange s.monitor.kh s.monitor.offset s.monitor.tolerance = true
  quiet : ∀ st, (s.stations.get st).quietOk

theorem levelsInRange_iff (lanes : Table Lane) (ramps : Table Ramp) :
    levelsInRange lanes ramps = true ↔ (∀ p ∈ lanes, p.2.level ≤ 7) ∧ ∀ p ∈ ramps, p.2.mask ≤ 7 := by
  simp only [levelsInRange, Bool.and_eq_true, List.all_eq_true, decide_eq_true_eq]

theorem State.boundsOk_iff (s : State) : s.boundsOk = true ↔ s.Bounded ∧ s.store.image.Bounded := by
  have quiet : (allStations.all fun st => decide (((s.stations.get st).quiet.getD 0) ≤ Config.quietLimit)) =
      true ↔ ∀ st, (s.stations.get st).quietOk := by
    simp only [List.all_eq_true, decide_eq_true_eq, StationRow.quietOk]
    exact ⟨fun h st => h st (mem_allStations st), fun h st _ => h st⟩
  simp only [State.boundsOk, Bool.and_eq_true, quiet, levelsInRange_iff]
  simp only [List.all_eq_true, decide_eq_true_eq]
  constructor
  · rintro ⟨⟨⟨⟨⟨⟨⟨⟨⟨⟨⟨⟨⟨⟨⟨⟨⟨⟨⟨⟨a, b⟩, c⟩, d⟩, e⟩, f⟩, g⟩, h⟩, i⟩, j⟩, k⟩, l⟩, m⟩, n⟩, o⟩, p⟩, q⟩, r⟩, t⟩, u⟩, v⟩
    exact ⟨⟨a, c, d, e, f, g, h, k, m, n, o.1, o.2, q, t, v⟩, ⟨b, i, j, l, p.1, p.2, r, u⟩⟩
  · rintro ⟨⟨a, c, d, e, f, g, h, k, m, n, o1, o2, q, t, v⟩, ⟨b, i, j, l, p1, p2, r, u⟩⟩
    exact ⟨⟨⟨⟨⟨⟨⟨⟨⟨⟨⟨⟨⟨⟨⟨⟨⟨⟨⟨⟨a, b⟩, c⟩, d⟩, e⟩, f⟩, g⟩, h⟩, i⟩, j⟩, k⟩, l⟩, m⟩, n⟩, ⟨o1, o2⟩⟩, ⟨p1, p2⟩⟩, q⟩, r⟩, t⟩, u⟩, v⟩

theorem Table.all_modify {α : Type} {P : α → Prop} {t : Table α} {n : Nat} {f : α → α}
    (h : ∀ p ∈ t, P p.2) (k : ∀ a, P a → P (f a)) : ∀ p ∈ t.modify n f, P p.2 := by
  intro p hp
  obtain ⟨q, hq, rfl⟩ := List.mem_map.mp hp
  split
  · exact k _ (h q hq)
  · exact h q hq

theorem Table.all_mapAll {α β : Type} {P : β → Prop} {t : Table α} {f : α → β}
    (h : ∀ p ∈ t, P (f p.2)) : ∀ p ∈ t.mapAll f, P p.2 := by
  intro p hp
  obtain ⟨q, hq, rfl⟩ := List.mem_map.mp hp
  exact h q hq

theorem levels_modify {t : Table Lane} {n : Nat} {f : Lane → Lane} (h : ∀ p ∈ t, p.2.level ≤ 7)
    (k : ∀ l, (f l).level = l.level) : ∀ p ∈ t.modify n f, p.2.level ≤ 7 :=
  Table.all_modify (P := fun l : Lane => l.level ≤ 7) h fun l hl => by rw [k]; exact hl

theorem masks_modify {t : Table Ramp} {n : Nat} {f : Ramp → Ramp} (h : ∀ p ∈ t, p.2.mask ≤ 7)
    (k : ∀ r, (f r).mask = r.mask) : ∀ p ∈ t.modify n f, p.2.mask ≤ 7 :=
  Table.all_modify (P := fun r : Ramp => r.mask ≤ 7) h fun r hr => by rw [k]; exact hr

theorem lanesResettled.levels {a b : Table Lane} (h : lanesResettled a b) (k : ∀ p ∈ a, p.2.level ≤ 7) :
    ∀ p ∈ b, p.2.level ≤ 7 := by
  induction h with
  | nil => exact fun _ hp => nomatch hp
  | cons one _ ih =>
    rw [List.forall_mem_cons] at k ⊢
    exact ⟨one.2.level k.1, ih k.2⟩

section
variable {s : State} (hs : s.Bounded)
include hs

/-- An admission with a place left in the Movement Table (R84, R93, R99). -/
theorem State.Bounded.addReservation {r : Reservation} (room : s.movements.length < Config.reservations)
    (h : r.seconds ≤ 900) : (s.addReservation r).Bounded :=
  { hs with
    movements := by simpa [State.addReservation, State.onRamp] using room
    seqLo := by simp only [State.addReservation]; split <;> omega
    seqHi := by
      have := hs.seqHi
      simp only [State.addReservation]
      split
      · decide
      · omega
    seconds := fun q hq => (List.mem_append.mp hq).elim (hs.seconds q)
      fun e => by rw [List.mem_singleton.mp e]; exact h
    masks := by rw [State.addReservation_ramps]; exact masks_modify hs.masks fun _ => rfl }

theorem State.Bounded.endReservation (r : Reservation) : (s.endReservation r).Bounded :=
  { hs with
    movements := (List.length_eraseP_le).trans hs.movements
    seconds := fun q hq => hs.seconds q (List.mem_of_mem_eraseP hq)
    masks := by rw [State.endReservation_ramps]; exact masks_modify hs.masks fun _ => rfl }

theorem State.Bounded.setUnitState (b : Booking) (x : UnitState) : (s.setUnitState b x).Bounded :=
  { hs with register := by simpa [State.setUnitState] using hs.register }

theorem State.Bounded.removeRecord (b : Booking) : (s.removeRecord b).Bounded :=
  { hs with register := (List.length_filter_le _ _).trans hs.register }

theorem State.Bounded.dropWaiting (b : Booking) : (s.dropWaiting b).Bounded :=
  { hs with
    waiting := (List.length_filter_le _ _).trans hs.waiting
    retries := fun w hw => hs.retries w (List.mem_of_mem_filter hw) }

/-- An operation that changes lanes, account sums, zones and pool leaves what is bounded. -/
theorem State.Bounded.of_lane {t : State} {n : Nat} {f : Lane → Lane} (lanes : t.lanes = s.lanes.modify n f)
    (level : ∀ l, (f l).level = l.level)
    (same : t.register = s.register ∧ t.movements = s.movements ∧ t.waiting = s.waiting ∧
      t.seqNext = s.seqNext ∧ t.timeout = s.timeout ∧ t.clock = s.clock ∧ t.ramps = s.ramps ∧
      t.monitor = s.monitor ∧ t.stations = s.stations)
    (band : t.account.kp = s.account.kp ∧ t.account.ks = s.account.ks ∧ t.account.h = s.account.h) :
    t.Bounded := by
  obtain ⟨h1, h2, h3, h4, h5, h6, h7, h8, h9⟩ := same
  obtain ⟨b1, b2, b3⟩ := band
  exact
    { register := by rw [h1]; exact hs.register
      movements := by rw [h2]; exact hs.movements
      waiting := by rw [h3]; exact hs.waiting
      seqLo := by rw [h4]; exact hs.seqLo
      seqHi := by rw [h4]; exact hs.seqHi
      timeoutLo := by rw [h5]; exact hs.timeoutLo
      timeoutHi := by rw [h5]; exact hs.timeoutHi
      now := by rw [h6]; exact hs.now
      seconds := by rw [h2]; exact hs.seconds
      retries := by rw [h3]; exact hs.retries
      levels := by rw [lanes]; exact levels_modify hs.levels level
      masks := by rw [h7]; exact hs.masks
      band := by rw [b1, b2, b3]; exact hs.band
      heel := by rw [h8]; exact hs.heel
      quiet := by rw [h9]; exact hs.quiet }

theorem State.Bounded.onLane {n : Nat} {f : Lane → Lane} (h : ∀ l, (f l).level = l.level) :
    (s.onLane n f).Bounded :=
  { hs with levels := levels_modify hs.levels h }

theorem State.Bounded.reserveLoad {ramp : Nat} {b : Booking} {u : UnitBody} {p : SlotPlace}
    (room : s.movements.length < Config.reservations) : (s.reserveLoad ramp b u p).Bounded := by
  have placed : (s.opPlace p.lane { booking := b, unit := u, offset := p.offset, state := .reserved }
      p.delta p.zone).Bounded :=
    hs.of_lane (State.opPlace_lanes ..) (fun _ => rfl) ⟨rfl, rfl, rfl, rfl, rfl, rfl, rfl, rfl, rfl⟩
      ⟨rfl, rfl, rfl⟩
  exact (placed.addReservation room hs.timeoutHi).setUnitState _ _

theorem Examined.bounded {t : State} {w : Waiting} (h : Examined s w t) : t.Bounded := by
  cases h with
  | skipped => exact hs
  | retried rs h =>
    refine { hs with waiting := by simpa [State.setWaiting] using hs.waiting, retries := fun q hq => ?_ }
    obtain ⟨x, hx, rfl⟩ := List.mem_map.mp hq
    split
    · simp only [Config.retryLimit] at h
      simp only
      omega
    · exact hs.retries x hx
  | excluded => exact (hs.dropWaiting _).setUnitState _ _
  | admitted row unit n l rec fits =>
    exact ((hs.dropWaiting _).reserveLoad (State.movements_lt_of_chosen fits)).onLane fun _ => rfl

end

theorem Lane.lapseLoad_level (ramp : Nat) (d : Int) (z : Option Nat) (l : Lane) :
    (l.lapseLoad ramp d z).level = l.level := by
  unfold Lane.lapseLoad
  split <;> rfl

theorem Lane.lapseDischarge_level (ramp : Nat) (d : Int) (z : Option Nat) (l : Lane) :
    (l.lapseDischarge ramp d z).level = l.level := by
  unfold Lane.lapseDischarge
  split <;> rfl

theorem startLane_level (s : State) (l : Lane) : (startLane s l).level = 4 := by
  unfold startLane
  dsimp only
  split
  · rfl
  · split <;> rfl

theorem State.putRecord_register_length {s : State} {u : UnitRecord}
    (room : s.findRecord u.booking = none → s.register.length < Config.registerSize)
    (h : s.register.length ≤ Config.registerSize) :
    (s.putRecord u).register.length ≤ Config.registerSize := by
  unfold State.putRecord
  split
  · simpa using h
  · rename_i none
    have := room (State.findRecord_eq_none.mpr (by simpa using none))
    simpa using this

theorem State.shutOut_fold_register_length (ws : List Waiting) (s : State) :
    (ws.foldl (fun t w => t.setUnitState w.booking .excluded) s).register.length = s.register.length := by
  induction ws generalizing s with
  | nil => rfl
  | cons w ws ih =>
    rw [List.foldl_cons, ih]
    simp [State.setUnitState]

theorem Change.bounded {s t : State} (h : Change s t) (hs : s.Bounded) : t.Bounded := by
  cases h with
  | stations p h => exact { hs with quiet := fun st => h st (hs.quiet st) }
  | defLanes t hm wf new =>
    refine { hs with levels := fun q hq => ?_ }
    rcases new q hq with old | ⟨p, e⟩
    · exact hs.levels q old
    · rw [e]
      exact (by decide : 4 ≤ 7)
  | defRamps t hm wf new =>
    refine { hs with masks := fun q hq => ?_ }
    rcases new q hq with old | ⟨p, e⟩
    · exact hs.masks q old
    · rw [e]
      exact le_refl 7
  | sealPlan =>
    exact { hs with
      movements := Nat.zero_le _
      waiting := Nat.zero_le _
      seqLo := le_refl 1
      seqHi := (by decide : 1 ≤ Config.maxTime)
      now := Nat.zero_le _
      seconds := fun _ h => (nomatch h)
      retries := fun _ h => (nomatch h)
      levels := Table.all_mapAll (P := fun l : Lane => l.level ≤ 7) (f := startLane s) fun p _ => by
        rw [startLane_level]; decide
      masks := Table.all_mapAll (t := s.ramps) (P := fun r : Ramp => r.mask ≤ 7)
        (f := fun r => newRamp r.reach) fun p _ => le_refl 7
      band := rfl }
  | erase => exact { hs with levels := fun _ h => (nomatch h), masks := fun _ h => (nomatch h) }
  | clear =>
    exact { hs with
      register := by simpa [State.clearPlan] using hs.register
      waiting := Nat.zero_le _
      now := Nat.zero_le _
      retries := fun _ h => (nomatch h)
      levels := fun _ h => (nomatch h)
      masks := fun _ h => (nomatch h) }
  | account a same range => exact { hs with band := range hs.band }
  | monitor m ok range => exact { hs with heel := range hs.heel }
  | timeout v lo hi => exact { hs with timeoutLo := lo, timeoutHi := hi }
  | clock c hm reached now => exact { hs with now := now hs.now }
  | shutOut =>
    rw [State.shutOutAll_eq]
    exact { hs with
      register := by simpa [State.shutOutAll, State.shutOut_fold_register_length] using hs.register
      waiting := Nat.zero_le _
      retries := fun _ h => (nomatch h) }
  | ramp r f h mask => exact { hs with masks := Table.all_modify hs.masks mask }
  | lanes t h => exact { hs with levels := h.levels hs.levels }
  | aged =>
    refine { hs with
      movements := by simpa using hs.movements
      seconds := fun q hq => ?_ }
    obtain ⟨r, hr, rfl⟩ := List.mem_map.mp hq
    exact (Nat.sub_le _ _).trans (hs.seconds r hr)
  | announce u st free old room =>
    have length := State.putRecord_register_length room hs.register
    rw [State.putRecord_eq]
    exact { hs with register := length }
  | reannounce b => exact hs.setUnitState b _
  | remove b => exact hs.removeRecord b
  | withdraw b => exact (hs.dropWaiting b).removeRecord b
  | sendBack b => exact (hs.dropWaiting b).setUnitState b _
  | wait w hm shut rec room first =>
    refine { hs.setUnitState w.booking .waiting with
      waiting := by simpa using room
      retries := fun q hq => (List.mem_append.mp hq).elim (hs.retries q) fun e => ?_ }
    rw [List.mem_singleton.mp e, first]
    exact Nat.zero_le _
  | reserve ramp row unit n l hm rec st fits => exact hs.reserveLoad (State.movements_lt_of_chosen fits)
  | pass => exact State.runPass_induct (fun e hs => Examined.bounded hs e) s hs
  | stow r =>
    exact ((hs.endReservation r).of_lane (State.opStow_lanes ..) (fun _ => rfl) ⟨rfl, rfl, rfl, rfl, rfl, rfl, rfl, rfl, rfl⟩
      ⟨rfl, rfl, rfl⟩).removeRecord _
  | backOut r =>
    exact ((hs.endReservation r).of_lane (State.opBackOut_lanes ..) (fun _ => rfl) ⟨rfl, rfl, rfl, rfl, rfl, rfl, rfl, rfl, rfl⟩
      ⟨rfl, rfl, rfl⟩).setUnitState _ _
  | offload r =>
    exact (hs.endReservation r).of_lane (State.opOffload_lanes ..) (fun _ => rfl)
      ⟨rfl, rfl, rfl, rfl, rfl, rfl, rfl, rfl, rfl⟩ ⟨rfl, rfl, rfl⟩
  | keep r =>
    exact (hs.endReservation r).of_lane (State.opKeep_lanes ..) (fun _ => rfl)
      ⟨rfl, rfl, rfl, rfl, rfl, rfl, rfl, rfl, rfl⟩ ⟨rfl, rfl, rfl⟩
  | release ramp row b f hm h =>
    exact (hs.of_lane (State.opRelease_lanes ..) (fun _ => rfl) ⟨rfl, rfl, rfl, rfl, rfl, rfl, rfl, rfl, rfl⟩
      ⟨rfl, rfl, rfl⟩).addReservation h.room hs.timeoutHi
  | lapseLoad r =>
    exact ((hs.endReservation r).onLane (f := Lane.lapseLoad r.ramp r.delta r.zone)
      fun l => l.lapseLoad_level ..).setUnitState _ _
  | lapseDischarge r =>
    exact (hs.endReservation r).onLane (f := Lane.lapseDischarge r.ramp r.delta r.zone)
      fun l => l.lapseDischarge_level ..
  | stowLate n l c u =>
    exact (hs.of_lane (State.opStowLate_lanes ..) (fun _ => rfl)
      ⟨rfl, rfl, rfl, rfl, rfl, rfl, rfl, rfl, rfl⟩ ⟨rfl, rfl, rfl⟩).removeRecord _
  | offloadLate b f c =>
    exact hs.of_lane (State.opOffloadLate_lanes ..) (fun _ => rfl)
      ⟨rfl, rfl, rfl, rfl, rfl, rfl, rfl, rfl, rfl⟩ ⟨rfl, rfl, rfl⟩
  | dropLoad n l c u =>
    exact (hs.of_lane (State.opDropLoadCheck_lanes ..) (fun _ => rfl)
      ⟨rfl, rfl, rfl, rfl, rfl, rfl, rfl, rfl, rfl⟩ ⟨rfl, rfl, rfl⟩).setUnitState _ _
  | dropDischarge n l c =>
    exact hs.of_lane (State.opDropDischargeCheck_lanes ..) (fun _ => rfl)
      ⟨rfl, rfl, rfl, rfl, rfl, rfl, rfl, rfl, rfl⟩ ⟨rfl, rfl, rfl⟩
  | _ => exact { hs with }

theorem State.Bounded.image {s : State} (h : s.Bounded) : s.image.Bounded :=
  ⟨h.register, h.timeoutLo, h.timeoutHi, h.now, h.levels,
    Table.all_mapAll (t := s.ramps) (P := fun r : Ramp => r.mask ≤ 7)
      (f := fun r => { r with count := 0 }) fun p hp => h.masks p hp, h.band, h.heel⟩

theorem Image.cold_bounded : Image.cold.Bounded :=
  ⟨by decide, by decide, by decide, by decide, fun _ h => (nomatch h), fun _ h => (nomatch h), rfl, rfl⟩

/-- A state after a start is bounded where its retained contents are. -/
theorem Started.bounded {s t : State} {work : WorkMode} (h : Started s t work) (i : t.image.Bounded) :
    t.Bounded where
  register := i.register
  movements := by rw [h.movements]; exact Nat.zero_le _
  waiting := by rw [h.waiting]; exact Nat.zero_le _
  seqLo := by rw [h.seqNext]
  seqHi := by rw [h.seqNext]; decide
  timeoutLo := i.timeoutLo
  timeoutHi := i.timeoutHi
  now := i.now
  seconds := by rw [h.movements]; exact fun _ h => (nomatch h)
  retries := by rw [h.waiting]; exact fun _ h => (nomatch h)
  levels := i.levels
  masks := fun p hp => i.masks (p.1, { p.2 with count := 0 }) (List.mem_map_of_mem hp)
  band := i.band
  heel := i.heel
  quiet := fun st => by rw [h.stations]; cases st <;> exact Nat.zero_le _

theorem warmLane_level (zones : Table Zone) (ramp : Nat) (l : Lane) :
    (warmLane zones ramp l).level = l.level := by
  unfold warmLane
  dsimp only
  split
  · rfl
  · split <;> rfl

theorem revisedLane_level (s0 s1 : State) (p : Nat × Lane) : (revisedLane s0 s1 p).2.level = p.2.level := by
  unfold revisedLane
  split
  · split <;> rfl
  · rfl

theorem State.warmStart_lanes (s : State) (rates : BitVec 3) : (s.warmStart rates).lanes =
    s.store.image.lanes.map fun p => revisedLane (s.restored rates)
      ((s.warmLoaded rates).warmSections ((s.restored rates).sections.map (·.1)))
      (p.1, warmLane s.store.image.zones ((s.store.image.admitting.get p.1).getD 0) p.2) := by
  rw [State.warmStart_eq, State.reviseFrom]
  dsimp only
  have lanes (ns : List Nat) : ((s.warmLoaded rates).warmSections ns).lanes = s.store.image.lanes.map fun p =>
      (p.1, warmLane s.store.image.zones ((s.store.image.admitting.get p.1).getD 0) p.2) := by
    rw [State.warmSections_eq]
    rfl
  rw [lanes, List.map_map]
  rfl

theorem State.warmStart_bounded {s : State} (rates : BitVec 3) (h : s.store.image.Bounded) :
    (s.warmStart rates).Bounded := by
  refine (s.warmStart_started rates).bounded ⟨?_, ?_, ?_, ?_, ?levels, ?_, ?_, ?_⟩
  case levels =>
    intro p hp
    change p ∈ (s.warmStart rates).lanes at hp
    rw [State.warmStart_lanes] at hp
    obtain ⟨q, hq, rfl⟩ := List.mem_map.mp hp
    rw [revisedLane_level, warmLane_level]
    exact h.levels q hq
  all_goals rw [State.warmStart_eq, State.reviseFrom, State.warmSections_eq]
  · simpa [State.image, State.warmLoaded, State.warmAccount, State.warmLanes, State.restored] using h.register
  · exact h.timeoutLo
  · exact h.timeoutHi
  · exact h.now
  · exact Table.all_mapAll (t := s.store.image.ramps) (P := fun r : Ramp => r.mask ≤ 7)
      (f := fun r => { r with count := 0 }) fun p hp => h.masks p hp
  · exact h.band
  · exact h.heel

theorem Move.boundsOk {s t : State} (h : Move s t) (hs : s.boundsOk = true) : t.boundsOk = true := by
  obtain ⟨bounded, image⟩ := (State.boundsOk_iff s).mp hs
  rw [State.boundsOk_iff]
  cases h with
  | change h => exact ⟨h.bounded bounded, by rw [h.untouched.store]; exact image⟩
  | commit => exact ⟨{ bounded with }, bounded.image⟩
  | start strap rates =>
    refine ⟨State.started_cases strap rates ((s.emptied_started rates).bounded ?_) fun _ =>
      State.warmStart_bounded rates image, ?_⟩
    · exact Image.cold_bounded
    · rw [State.started_store]
      exact Image.cold_bounded
  | loss cutOff =>
    exact ⟨{ (s.emptied_started 0).bounded Image.cold_bounded with }, image⟩

/-- Settles O14: every move keeps the counts of the monitor, and every move keeps the capacities and
ranges. -/
theorem monitorAndCountersStayInRange : Obligations.MonitorAndCountersStayInRange :=
  ⟨fun _ _ => step_keeps Move.monitor_ok fun _ _ => id, fun _ _ => step_keeps Move.boundsOk fun _ _ => id⟩

end Sys2Proof.Machine

/-! Deck sections (spec/08 R137, R141, R145): every step keeps each section coherent with its state. -/

namespace Sys2Proof.Machine

/-! Reading canonical tables -/

theorem Table.rising_of_wf {α : Type} {t : Table α} {last : Nat} (h : t.wf last = true) :
    t.risingAbove 0 = true := by
  simp only [Table.wf, Bool.and_eq_true] at h
  exact h.1

theorem Table.mem_iff_get {α : Type} {t : Table α} {last : Nat} (h : t.wf last = true) (n : Nat) (a : α) :
    (n, a) ∈ t ↔ t.get n = some a :=
  ⟨fun m => Table.get_of_mem (Table.rising_of_wf h) m, Table.mem_of_get⟩

/-- In a canonical table a record changed under its number is the record read there. -/
theorem Table.all_modify_get {α : Type} {P : α → Prop} {t : Table α} {n last : Nat} {f : α → α}
    (wf : t.wf last = true) (h : ∀ p ∈ t, P p.2) (k : ∀ a, t.get n = some a → P a → P (f a)) :
    ∀ p ∈ t.modify n f, P p.2 := by
  intro p hp
  obtain ⟨q, hq, rfl⟩ := List.mem_map.mp hp
  split
  · rename_i e
    exact k _ ((Table.mem_iff_get wf _ _).mp (e ▸ hq)) (h q hq)
  · exact h q hq

theorem Table.all_iff_get {α : Type} {P : α → Prop} {t : Table α} {last : Nat} (wf : t.wf last = true) :
    (∀ p ∈ t, P p.2) ↔ ∀ n a, t.get n = some a → P a :=
  ⟨fun h n a g => h (n, a) (Table.mem_of_get g), fun h p hp => h p.1 p.2 ((Table.mem_iff_get wf _ _).mp hp)⟩

/-! What SEAL finds of the inputs -/

/-- A seal that finds no fault finds every defined section at one position (R13). -/
theorem sealFailure_none_sections {s : State} (h : sealFailure s = none) :
    s.sections.findSome? (sectionUnplaced s) = none := by
  unfold sealFailure at h
  split at h
  · cases h
  · split at h
    · cases h
    · split at h
      · cases h
      · split at h
        · cases h
        · split at h
          · cases h
          · split at h
            · cases h
            · split at h
              · cases h
              · assumption

theorem shownPosition_isSome_iff (i : Inputs) : (shownPosition i).isSome = true ↔ inputCount i = 1 := by
  obtain ⟨r, m, l⟩ := i
  cases r <;> cases m <;> cases l <;> decide

theorem startSection_ok {s : State} (h : sealFailure s = none) {p : Nat × Sect} (hp : p ∈ s.sections) :
    (startSection s p.1 p.2).ok = true ∧ (startSection s p.1 p.2).originOk = true := by
  have one := List.findSome?_eq_none_iff.mp (sealFailure_none_sections h) p hp
  have shown : (shownPosition (s.sectionInputs p.1)).isSome = true := by
    rw [shownPosition_isSome_iff]
    unfold sectionUnplaced at one
    split at one
    · assumption
    · cases one
  simp [startSection, newSection, Sect.ok, Sect.originOk, shown]

/-! The sections of a running plan -/

/-- Every section of a sealed profile is coherent and keeps its origin exactly while it moves. -/
def State.Sectioned (s : State) : Prop :=
  s.isSealed = true → ∀ p ∈ s.sections, p.2.ok = true ∧ p.2.originOk = true

/-- The same of the image, which keeps no origin. -/
def Image.Sectioned (i : Image) : Prop :=
  i.isSealed = true → ∀ p ∈ i.sections, p.2.ok = true ∧ p.2.origin = none

theorem State.sectionsOk_iff (s : State) :
    s.sectionsOk = true ↔ s.Sectioned ∧ s.store.image.Sectioned := by
  simp only [State.sectionsOk, State.Sectioned, Image.Sectioned, Bool.and_eq_true, Bool.or_eq_true,
    Bool.not_eq_true', List.all_eq_true, Option.isNone_iff_eq_none]
  cases s.isSealed <;> cases s.store.image.isSealed <;> simp

theorem Change.sectioned {s t : State} (h : Change s t) (wf : s.sections.wf Config.sectionCount = true)
    (moded : s.Moded) (hs : s.Sectioned) : t.Sectioned := by
  cases h with
  | defSections t hm =>
    intro sealed
    have := moded.unsealed hm
    simp [this] at sealed
  | sealPlan hm none =>
    intro _ p hp
    obtain ⟨q, hq, rfl⟩ := List.mem_map.mp hp
    exact startSection_ok none hq
  | erase | clear => exact fun _ _ hp => (nomatch hp)
  | shutOut =>
    rw [State.shutOutAll_eq]
    exact hs
  | announce u =>
    rw [State.putRecord_eq]
    exact hs
  | sect n f h =>
    rw [State.onSection_eq]
    exact fun sealed => Table.all_modify_get (P := fun c : Sect => c.ok = true ∧ c.originOk = true) wf (hs sealed)
      fun c get ok => (h c get).ok ok.1 ok.2
  | sects f h =>
    exact fun sealed => Table.all_mapAll (t := s.sections) (P := fun c : Sect => c.ok = true ∧ c.originOk = true)
      fun p hp => (h p.2).ok (hs sealed p hp).1 (hs sealed p hp).2
  | pass =>
    have k := s.runPass_keeps
    unfold State.Sectioned
    rw [k.isSealed, k.sections]
    exact hs
  | _ => exact hs

theorem State.Sectioned.image {s : State} (h : s.Sectioned) : s.image.Sectioned := by
  intro sealed
  refine Table.all_mapAll (t := s.sections) (P := fun c : Sect => c.ok = true ∧ c.origin = none)
    (f := fun c => { c with origin := none, timer := 0 }) fun p hp => ⟨?_, rfl⟩
  have ok := (h sealed p hp).1
  cases e : p.2.state <;> simp_all [Sect.ok]

/-! The sections after a warm start (R149) -/

theorem State.sensorFault_get {s : State} {n : Nat} {c : Sect} (cause : FaultCause)
    (hc : s.sections.get n = some c) (m : Nat) : (s.sensorFault n cause).sections.get m =
      if m = n then some (if s.pendingLanes n = [] then c.faulted cause else c.holding cause)
      else s.sections.get m := by
  unfold State.sensorFault
  by_cases e : m = n
  · subst e
    by_cases free : s.pendingLanes m = [] <;>
      simp [free, State.onSection, hc, Sect.toFault, Sect.faulted, Sect.toHeldFault, Sect.holding]
  · by_cases free : s.pendingLanes n = [] <;> simp [free, e, State.onSection]

/-- One section settled: the spec's reading of R149 at its number, the others as they were. -/
theorem State.warmSection_get {s : State} {n : Nat} {c : Sect} (hc : s.sections.get n = some c)
    (ok : c.ok = true) (m : Nat) : (s.warmSection n c).sections.get m =
      if m = n then some (s.warmedSection n c) else s.sections.get m := by
  have fault (cause : FaultCause) := State.sensorFault_get cause hc m
  have set (f : Sect → Sect) : (s.onSection n f).sections.get m =
      if m = n then some (f c) else s.sections.get m := by
    by_cases e : m = n
    · subst e
      simp [State.onSection, hc]
    · simp [State.onSection, e]
  have held (free : c.faultHeld = false) (rest : c.state ≠ .moving ∧ c.state ≠ .fault) :
      (s.warmHeld n c).sections.get m =
        if m = n then some (s.warmedSection n c) else s.sections.get m := by
    unfold State.warmHeld State.warmedSection
    simp only [rest.1, rest.2, free, if_false, true_and, Bool.false_eq_true]
    split
    · rw [set, free]
    · exact fault _
  unfold State.warmSection
  split
  case h_1 e => rw [set]; simp [State.warmedSection, e, Sect.toFault, Sect.faulted]
  case h_2 e =>
    by_cases m_n : m = n
    · subst m_n
      simp [State.warmedSection, e, hc]
    · simp [m_n]
  case h_3 e =>
    split
    · rename_i holds
      rw [fault]
      simp [State.warmedSection, e, holds]
    · rename_i clear
      exact held (by simpa using clear) (by simp [e])
  case h_4 e => exact held (by simp_all [Sect.ok]) (by simp [e])


/-- What settling a section reads: lanes, movements and inputs, never the other sections. -/
theorem State.warmedSection_congr {s t : State} (lanes : t.lanes = s.lanes) (moves : t.movements = s.movements)
    (inputs : t.inputs = s.inputs) (n : Nat) (c : Sect) : t.warmedSection n c = s.warmedSection n c := by
  unfold State.warmedSection State.pendingLanes State.affectedLanes State.pendingMovement
    State.sectionInputs
  rw [lanes, moves, inputs]

/-- The sections of a sealed profile settled in turn, each by its number. -/
theorem State.warmSections_get {ns : List Nat} (once : ns.Nodup) {s : State} (sealed : s.isSealed = true)
    (ok : ∀ n c, s.sections.get n = some c → n ∈ ns → c.ok = true) (m : Nat) :
    (s.warmSections ns).sections.get m =
      if m ∈ ns then (s.sections.get m).map (s.warmedSection m) else s.sections.get m := by
  induction ns generalizing s with
  | nil => rfl
  | cons n rest ih =>
    rw [List.nodup_cons] at once
    unfold State.warmSections
    simp only [State.fittedSection, sealed, if_true]
    cases hc : s.sections.get n with
    | none =>
      simp only
      rw [ih once.2 sealed fun k c hk mem => ok k c hk (List.mem_cons_of_mem n mem)]
      by_cases e : m = n
      · subst e
        simp [hc]
      · simp [e]
    | some c =>
      simp only
      have get := State.warmSection_get hc (ok n c hc (List.mem_cons_self ..))
      have frame := s.warmSection_eq n c
      rw [ih once.2 (by rw [frame]; exact sealed) fun k d hk mem => ?_]
      · rw [get]
        by_cases e : m = n
        · subst e
          simp [once.1, hc]
        · have same : (s.warmSection n c).warmedSection m = s.warmedSection m := funext fun d => by
            rw [frame]
            exact State.warmedSection_congr rfl rfl rfl m d
          rw [same]
          simp [e]
      · have ne : k ≠ n := fun e => once.1 (e ▸ mem)
        rw [get, if_neg ne] at hk
        exact ok k d hk (List.mem_cons_of_mem n mem)

/-- A coherent section of an image, settled: coherent, and without an origin. -/
theorem State.warmedSection_ok (s : State) (n : Nat) {c : Sect} (ok : c.ok = true) (origin : c.origin = none) :
    (s.warmedSection n c).ok = true ∧ (s.warmedSection n c).originOk = true := by
  unfold State.warmedSection
  dsimp only
  split
  · simp [Sect.faulted, Sect.ok, Sect.originOk]
  · split
    · simp_all [Sect.originOk]
    · rename_i moving fault
      have held : c.position.isSome = true ∧ c.timer = 0 := by
        cases e : c.state <;> simp_all [Sect.ok]
      split
      · simp_all [Sect.ok, Sect.originOk]
      · split
        · simp [Sect.faulted, Sect.ok, Sect.originOk]
        · simp [Sect.holding, Sect.ok, Sect.originOk, held, origin]

theorem Table.numbers_nodup {α : Type} {t : Table α} {last : Nat} (h : t.wf last = true) :
    (t.map (·.1)).Nodup := by
  rw [Table.wf_iff_pairwise] at h
  exact (List.pairwise_cons.mp h.1).2.imp fun lt => lt.ne

/-- The sections after a warm start of a sealed profile (R149): each defined one settled. -/
theorem State.warmStart_sections_get {s : State} (rates : BitVec 3) (sealed : s.store.image.isSealed = true)
    (wf : s.store.image.sections.wf Config.sectionCount = true) (image : s.store.image.Sectioned) (m : Nat) :
    (s.warmStart rates).sections.get m =
      (s.store.image.sections.get m).map ((s.warmLoaded rates).warmedSection m) := by
  have settled := State.warmSections_get (s := s.warmLoaded rates) (Table.numbers_nodup wf) sealed
    (fun n c hc _ => (image sealed _ (Table.mem_of_get hc)).1) m
  change ((s.warmLoaded rates).warmSections ((s.restored rates).sections.map (·.1))).sections.get m = _
  rw [show (s.restored rates).sections.map (·.1) = s.store.image.sections.map (·.1) from rfl, settled]
  change (if _ then (s.store.image.sections.get m).map _ else s.store.image.sections.get m) = _
  split
  · rfl
  · rename_i absent
    cases hc : s.store.image.sections.get m with
    | none => rfl
    | some c => exact absurd (List.mem_map_of_mem (Table.mem_of_get hc)) absent

theorem State.warmStart_sectioned {s : State} (rates : BitVec 3) (h : s.storesOk = true)
    (image : s.store.image.Sectioned) : (s.warmStart rates).Sectioned := by
  intro sealed
  rw [State.warmStart_isSealed] at sealed
  obtain ⟨tables, imageTables⟩ := (State.storesOk_iff s).mp h
  simp only [Image.tablesOk, Bool.and_eq_true] at imageTables
  have wf : (s.warmStart rates).sections.wf Config.sectionCount = true := by
    rw [Table.wf_congr _ _ _ (s.warmStart_numbers rates).sections]
    exact imageTables.1.2
  refine (Table.all_iff_get (P := fun c : Sect => c.ok = true ∧ c.originOk = true) wf).mpr fun n d hd => ?_
  rw [State.warmStart_sections_get rates sealed imageTables.1.2 image] at hd
  obtain ⟨c, hc, rfl⟩ := Option.map_eq_some_iff.mp hd
  obtain ⟨ok, origin⟩ := image sealed _ (Table.mem_of_get hc)
  exact State.warmedSection_ok _ n ok origin

/-- What coherence of the sections rests on. -/
def State.Settled (s : State) : Prop := s.storesOk = true ∧ s.modeOk = true ∧ s.sectionsOk = true

theorem Move.settled {s t : State} (h : Move s t) (hs : s.Settled) : t.Settled := by
  obtain ⟨stores, mode, sections⟩ := hs
  refine ⟨h.storesOk stores, h.modeOk mode, ?_⟩
  have wf := ((State.tablesOk_iff s).mp ((State.storesOk_iff s).mp stores).1).2.2.2.1
  have moded := ((State.modeOk_iff s).mp mode).1
  obtain ⟨here, image⟩ := (State.sectionsOk_iff s).mp sections
  rw [State.sectionsOk_iff]
  cases h with
  | change h => exact ⟨h.sectioned wf moded here, by rw [h.untouched.store]; exact image⟩
  | commit => exact ⟨here, here.image⟩
  | start strap rates =>
    refine ⟨State.started_cases strap rates (P := State.Sectioned) (fun _ _ hp => (nomatch hp))
      fun _ => State.warmStart_sectioned rates stores image, ?_⟩
    rw [State.started_store]
    exact fun _ _ hp => (nomatch hp)
  | loss cutOff => exact ⟨fun _ _ hp => (nomatch hp), image⟩

/-- Settles O13: every move keeps the sections coherent, with the stores canonical and the mode in agreement
with the seal. -/
theorem sectionsStayCoherent : Obligations.SectionsStayCoherent :=
  fun _ _ stores mode sections h =>
    (step_keeps (I := State.Settled) Move.settled (fun _ _ => id) ⟨stores, mode, sections⟩ h).2.2

end Sys2Proof.Machine

/-! How a command ends: the image it writes and the slots it releases (spec/10 R162, spec/11 R169); what a
controller at a standstill does; the reset state. -/

namespace Sys2Proof.Machine

/-- A link whose mailbox, queue and slots are as they were. -/
structure Link.SameBoxes (a b : Link) : Prop where
  mailbox : b.mailbox = a.mailbox
  queue : b.queue = a.queue
  slots : b.slots = a.slots

theorem Link.SameBoxes.refl (a : Link) : a.SameBoxes a := ⟨rfl, rfl, rfl⟩

theorem Link.SameBoxes.trans {a b c : Link} (h : a.SameBoxes b) (k : b.SameBoxes c) : a.SameBoxes c :=
  ⟨k.1.trans h.1, k.2.trans h.2, k.3.trans h.3⟩

/-- The boxes of every link are as they were. -/
def SameBoxes (s t : State) : Prop := ∀ o, (s.links.get o).SameBoxes (t.links.get o)

theorem SameBoxes.of_links {s t : State} (h : t.links = s.links) : SameBoxes s t := fun o => by
  rw [h]
  exact .refl _

theorem SameBoxes.setLink {s : State} {st : Station} {l : Link} (h : (s.links.get st).SameBoxes l) :
    SameBoxes s (s.setLink st l) := fun o => by
  rw [State.setLink_get]
  split
  · rename_i e
    exact e ▸ h
  · exact .refl _

/-- The ways a command ends: as an event does, with the image and the boxes as they were, with an image write
that leaves the boxes or finds the slots empty, or without supply. -/
inductive Ended (s : State) : State → Prop
  | event (u v : State) : Ended s (u.settleEvent v)
  | idle {t : State} (boxes : SameBoxes s t) (store : t.store = s.store) (image : t.image = s.image)
    (supplied : t.control.supplied = s.control.supplied) : Ended s t
  | written (u : State) (boxes : SameBoxes s u) : Ended s u.commit
  | started (u : State) (empty : ∀ o, (u.links.get o).slots = []) : Ended s u.commit
  | dead {t : State} (slots : ∀ o, (t.links.get o).slots = []) (supplied : t.control.supplied = false) :
    Ended s t

theorem Ended.same (s : State) : Ended s s := .idle (.of_links rfl) rfl rfl rfl

theorem Ended.of_finish (s s1 s0 : State) (r : Option (Station × Frame)) (head tail : List Notice)
    (named : Bool) : Ended s (s1.finish s0 r head tail named) := .event _ _

theorem State.take_ended {s t : State} {st : Station} {isKind : Nat → Bool} {handle : Frame → State → Taken}
    (h : s.take st isKind handle = .next t) : Ended s t := by
  unfold State.take at h
  split at h
  · split at h
    · cases h
      exact .of_finish ..
    · cases h
      exact .same s
  · cases h
    exact .same s

theorem State.setLink_ended {s : State} {st : Station} {l : Link} (h : (s.links.get st).SameBoxes l) :
    Ended s (s.setLink st l) := .idle (.setLink h) rfl rfl rfl

theorem State.frameGathered_ended {s t : State} (st : Station) (bytes : List Byte) (h : Ended s t) :
    Ended s (t.frameGathered st bytes) := by
  unfold State.frameGathered
  split
  · exact h
  · exact .of_finish ..

theorem execFrameReceived_ended {s t : State} {st : Station} {bytes : List Byte}
    (h : execFrameReceived st bytes s = .next t) : Ended s t := by
  unfold execFrameReceived at h
  split at h
  · cases h
    have fold (frames : List (List Byte)) (u : State) (hu : Ended s u) :
        Ended s (frames.foldl (fun t b => t.frameGathered st b) u) := by
      induction frames generalizing u with
      | nil => exact hu
      | cons b rest ih => exact ih _ (State.frameGathered_ended st b hu)
    exact fold _ _ (State.setLink_ended ⟨rfl, rfl, rfl⟩)
  · cases h
    exact .same s

/-- The admitting ramps do not depend on the seconds of the reservations (R122). -/
theorem State.aged_admitting (s : State) :
    ({ s with movements := s.movements.map Reservation.second } : State).admitting = s.admitting := by
  unfold State.admitting State.reservationOn
  simp only [List.find?_map, Option.map_map]
  rfl

theorem execTimeBaseSecond_ended {s t : State} (h : execTimeBaseSecond s = .next t) : Ended s t := by
  unfold execTimeBaseSecond at h
  split at h
  · cases h
    refine .idle (.of_links rfl) rfl ?_ rfl
    have sections : ((if s.planMode then s.sections.mapAll Sect.second else s.sections).mapAll
        fun c => { c with origin := none, timer := 0 }) =
        s.sections.mapAll fun c => { c with origin := none, timer := 0 } := by
      split
      · rw [Table.mapAll_mapAll]
        congr 1
        funext c
        simp only [Function.comp, Sect.second]
        split <;> rfl
      · rfl
    have admitting : ({ s with movements := if s.mode = .run then s.movements.map Reservation.second
        else s.movements } : State).admitting = s.admitting := by
      split
      · exact s.aged_admitting
      · rfl
    simp only [State.image, sections]
    congr 1
  · cases h
    exact .same s

theorem execPowerFail_ended {s t : State} (h : execPowerFail s = .next t) : Ended s t := by
  unfold execPowerFail at h
  split at h <;> cases h
  · exact .written _ (.of_links rfl)
  · exact .idle (.of_links rfl) rfl rfl rfl

/-- A notice placed where the queue has room and no slot holds leaves no slot holding. -/
theorem Link.place_unheld {l : Link} (k : NoticeKind) (c : List Byte) (room : l.queue.length < Config.queueSize)
    (unheld : l.slots = []) : (l.place k c).release.slots = [] := by
  have placed : (l.place k c).slots = [] := by
    unfold Link.place
    rw [if_pos ⟨room, unheld⟩]
    exact unheld
  unfold Link.release
  split
  · simp [placed, releaseInto]
  · exact placed

theorem started_links (s : State) (strap : StartStrap) (rates : BitVec 3) (o : Station) :
    ((s.started strap rates).1.links.get o) = Link.atStart (s.links.get o).readyInput := by
  have cold : (s.emptied rates).links.get o = Link.atStart (s.links.get o).readyInput := by
    simp [State.emptied]
  unfold State.started
  split
  · exact cold
  · split
    · rw [State.warmStart_eq, State.reviseFrom, State.warmSections_eq]
      exact cold
    · exact cold

theorem execStart_ended {s t : State} {strap : StartStrap} {rates : BitVec 3}
    (h : execStart strap rates s = .next t) : Ended s t := by
  have unheld (n : Notice) (o : Station) : (((s.started strap rates).1.send n).links.get o).slots = [] := by
    simp only [State.send, PerStation.get_of, started_links]
    split
    · exact Link.place_unheld _ _ (Nat.zero_lt_succ _) rfl
    · rfl
  unfold execStart at h
  dsimp only at h
  split at h <;> cases h
  · exact .started _ (unheld _)
  · exact .started _ (unheld _)

theorem Ended.of_event {s t u s0 : State} {head tail : List Notice} {named : Bool}
    (h : u.event s0 head tail named = .next t) : Ended s t := by
  cases h
  exact .of_finish ..

theorem Ended.of_same {s t : State} (h : (.next s : Result) = .next t) : Ended s t := by
  cases h
  exact .same s

theorem execUnknownMessageKind_ended {s t : State} {st : Station}
    (h : execUnknownMessageKind st s = .next t) : Ended s t := by
  unfold execUnknownMessageKind at h
  exact State.take_ended h

theorem State.setReceiver_ended {s t : State} {st : Station} {r : Receiver}
    (h : (.next (s.setReceiver st r) : Result) = .next t) : Ended s t := by
  cases h
  exact State.setLink_ended ⟨rfl, rfl, rfl⟩

theorem execInterbyteTimeout_ended {s t : State} {st : Station} (h : execInterbyteTimeout st s = .next t) :
    Ended s t := by
  unfold execInterbyteTimeout at h
  split at h
  · split at h
    · exact State.setReceiver_ended h
    · exact .of_same h
  · exact .of_same h
  · exact .of_same h

theorem execBreakEnd_ended {s t : State} {st : Station} (h : execBreakEnd st s = .next t) : Ended s t := by
  unfold execBreakEnd at h
  split at h
  · split at h
    · exact State.setReceiver_ended h
    · exact .of_same h
  · exact .of_same h
  · exact .of_same h

theorem execFrameSent_ended {s t : State} {st : Station} (h : execFrameSent st s = .next t) : Ended s t := by
  unfold execFrameSent at h
  split at h
  · exact .of_same h
  · split at h
    · exact .of_event h
    · exact .of_same h

theorem execLineBreak_ended {s t : State} {st : Station} (h : execLineBreak st s = .next t) : Ended s t := by
  unfold execLineBreak at h
  split at h
  · exact .of_event h
  · exact .of_same h

theorem execLineReadyChange_ended {s t : State} {st : Station} {level : Bool}
    (h : execLineReadyChange st level s = .next t) : Ended s t := by
  unfold execLineReadyChange at h
  dsimp only at h
  split at h
  · exact .of_event h
  · cases h
    exact State.setLink_ended ⟨rfl, rfl, rfl⟩

theorem execQuietLimit_ended {s t : State} {st : Station} (h : execQuietLimit st s = .next t) : Ended s t := by
  unfold execQuietLimit at h
  split at h
  · exact .of_event h
  · exact .of_same h

theorem execLoadExpiry_ended {s t : State} {n : Nat} (h : execLoadExpiry n s = .next t) : Ended s t := by
  unfold execLoadExpiry at h
  split at h
  · split at h
    · exact .of_event h
    · exact .of_same h
  · exact .of_same h

theorem execDischargeExpiry_ended {s t : State} {n : Nat} (h : execDischargeExpiry n s = .next t) :
    Ended s t := by
  unfold execDischargeExpiry at h
  split at h
  · split at h
    · exact .of_event h
    · exact .of_same h
  · exact .of_same h

theorem execTankReportExpiry_ended {s t : State} (h : execTankReportExpiry s = .next t) : Ended s t := by
  unfold execTankReportExpiry at h
  split at h
  · exact .of_event h
  · exact .of_same h

theorem execSample_ended {s t : State} {code : BitVec 12} (h : execSample code s = .next t) : Ended s t := by
  unfold execSample at h
  split at h
  · exact .of_event h
  · exact .of_same h

theorem execClockAdvance_ended {s t : State} (h : execClockAdvance s = .next t) : Ended s t := by
  unfold execClockAdvance at h
  split at h
  · exact .of_event h
  · exact .of_same h

theorem execMoveTimerExpiry_ended {s t : State} {n : Nat} (h : execMoveTimerExpiry n s = .next t) :
    Ended s t := by
  unfold execMoveTimerExpiry at h
  split at h
  · exact .of_same h
  · split at h
    · exact .of_event h
    · exact .of_same h

theorem execSectionInputChange_ended {s t : State} {n : Nat} {i : Inputs}
    (h : execSectionInputChange n i s = .next t) : Ended s t := by
  have pins : (.next (s.setInputs n i) : Result) = .next t → Ended s t := fun e => by
    cases e
    exact .idle (.of_links rfl) rfl rfl rfl
  unfold execSectionInputChange at h
  dsimp only at h
  split at h
  · cases h
  · split at h
    · split at h
      · exact .of_event h
      · exact pins h
    · exact pins h

theorem execPowerRestored_ended {s t : State} (h : execPowerRestored s = .next t) : Ended s t := by
  unfold execPowerRestored at h
  split at h
  · exact .of_event h
  · cases h
    exact .idle (.of_links rfl) rfl rfl rfl

theorem execSupplyLoss_ended {s t : State} {cutOff : Bool} (h : execSupplyLoss cutOff s = .next t) :
    Ended s t := by
  cases h
  exact .dead (fun o => by simp [State.emptied, Link.atStart]) rfl

/-- Every command ends in one of the ways. -/
theorem exec_ended {c : Instr} {s t : State} (h : exec c s = .next t) : Ended s t := by
  cases request : requestOf c with
  | some p =>
    obtain ⟨handle, takes⟩ := exec_request request
    rw [takes] at h
    exact State.take_ended h
  | none =>
    cases c with
    | unknownMessageKind st => exact execUnknownMessageKind_ended h
    | frameReceived st bytes => exact execFrameReceived_ended h
    | interbyteTimeout st => exact execInterbyteTimeout_ended h
    | frameSent st => exact execFrameSent_ended h
    | lineBreak st => exact execLineBreak_ended h
    | lineReadyChange st asserted => exact execLineReadyChange_ended h
    | quietLimit st => exact execQuietLimit_ended h
    | loadExpiry lane => exact execLoadExpiry_ended h
    | dischargeExpiry lane => exact execDischargeExpiry_ended h
    | tankReportExpiry => exact execTankReportExpiry_ended h
    | sample code => exact execSample_ended h
    | clockAdvance => exact execClockAdvance_ended h
    | moveTimerExpiry sect => exact execMoveTimerExpiry_ended h
    | sectionInputChange sect levels => exact execSectionInputChange_ended h
    | powerFail => exact execPowerFail_ended h
    | powerRestored => exact execPowerRestored_ended h
    | resetAsserted =>
      cases h
      exact .idle (.of_links rfl) rfl rfl rfl
    | start strap rates => exact execStart_ended h
    | planLockKeyChange locked =>
      cases h
      exact .idle (.of_links rfl) rfl rfl rfl
    | timeBaseSecond => exact execTimeBaseSecond_ended h
    | breakEnd st => exact execBreakEnd_ended h
    | supplyLoss cutOff => exact execSupplyLoss_ended h
    | _ => cases request

/-! O12: the image -/

theorem State.commit_imageOk (s : State) : s.commit.imageOk = true := by
  have same : s.commit.image = s.image := rfl
  simp [State.imageOk, same]

theorem Ended.imageOk {s t : State} (h : Ended s t) (hs : s.imageOk = true) : t.imageOk = true := by
  cases h with
  | event u v => exact State.commit_imageOk _
  | idle boxes store image supplied =>
    unfold State.imageOk
    rw [store, image, supplied]
    exact hs
  | written u boxes => exact State.commit_imageOk _
  | started u empty => exact State.commit_imageOk _
  | dead slots supplied => simp [State.imageOk, supplied]

/-- A step is its command's effect on the state without it; with no command nothing changes. -/
theorem step_cases {s t : State} (h : step s = .next t) :
    t = s ∨ ∃ c rest, exec c { s with pending := rest } = .next t := by
  unfold step at h
  split at h
  · cases h
    exact .inl rfl
  · exact .inr ⟨_, _, h⟩

/-- Settles O12: an event writes the image at its end, and what writes none leaves what the image holds. -/
theorem imageFollowsTheState : Obligations.ImageFollowsTheState := by
  intro s t hs h
  obtain rfl | ⟨c, rest, h⟩ := step_cases h
  · exact hs
  · exact (exec_ended h).imageOk hs

/-! O11: the links -/

/-- A slot holds only while the queue is full or the mailbox is not empty (R162). -/
def Link.Prompt (l : Link) : Prop := l.slots = [] ∨ l.queue.length = Config.queueSize ∨ l.mailbox ≠ []

theorem Link.ok_iff (l : Link) : l.ok = true ↔ l.bounded ∧ l.Prompt := by
  simp [Link.ok, Link.bounded, Link.Prompt, and_assoc, or_assoc]

theorem State.linksOk_iff (s : State) :
    s.linksOk = true ↔ (∀ st, (s.links.get st).bounded) ∧ ∀ st, (s.links.get st).Prompt := by
  have all : s.linksOk = true ↔ ∀ st, (s.links.get st).ok = true := by
    simp only [State.linksOk, List.all_eq_true]
    exact ⟨fun h st => h st (by cases st <;> decide), fun h st _ => h st⟩
  simp only [all, Link.ok_iff, forall_and]

theorem Link.SameBoxes.prompt {a b : Link} (h : a.SameBoxes b) (ha : a.Prompt) : b.Prompt := by
  unfold Link.Prompt
  rwa [h.mailbox, h.queue, h.slots]

/-- A release within the queue's bound leaves no slot that could be released. -/
theorem Link.release_prompt {l : Link} (h : l.release.bounded) : l.release.Prompt := by
  have whole : l.queue.length ≤ Config.queueSize :=
    (Link.release_grown l).queue.length_le.trans h.2.1
  unfold Link.release Link.Prompt
  split
  · obtain empty | full := releaseInto_done l.queue l.slots whole
    · exact .inl empty
    · exact .inr (.inl full)
  · rename_i held
    exact .inr (.inr (by simpa using held))

theorem Move.links_bounded {s t : State} (h : Move s t) (hs : ∀ st, (s.links.get st).bounded) :
    ∀ st, (t.links.get st).bounded := by
  cases h with
  | change h =>
    cases h with
    | links ls guard => exact fun st => guard st (hs st)
    | shutOut hm =>
      rw [State.shutOutAll_eq]
      exact hs
    | announce u =>
      rw [State.putRecord_eq]
      exact hs
    | pass h =>
      rw [s.runPass_keeps.links]
      exact hs
    | _ => exact hs
  | commit => exact hs
  | start strap rates =>
    intro st
    rw [started_links]
    simp [Link.atStart, Link.bounded]
  | loss cutOff =>
    intro st
    simp [State.withoutSupply, State.emptied, Link.atStart, Link.bounded]

theorem Ended.prompt {s t : State} (h : Ended s t) (bounded : ∀ st, (t.links.get st).bounded) 
    (hs : ∀ st, (s.links.get st).Prompt) : ∀ st, (t.links.get st).Prompt := by
  cases h with
  | event u v =>
    intro st
    have := bounded st
    rw [State.settleEvent_get] at this ⊢
    exact Link.release_prompt this
  | idle boxes store image supplied => exact fun st => (boxes st).prompt (hs st)
  | written u boxes => exact fun st => (boxes st).prompt (hs st)
  | started u empty => exact fun st => .inl (empty st)
  | dead slots supplied => exact fun st => .inl (slots st)

/-- Settles O11: every move keeps the bounds, and a command leaves no slot that could be released. -/
theorem linksStayWithinBounds : Obligations.LinksStayWithinBounds := by
  intro s t hs h
  obtain ⟨bounded, prompt⟩ := (State.linksOk_iff s).mp hs
  have after := step_keeps Move.links_bounded (fun _ _ h => h) bounded h
  refine (State.linksOk_iff t).mpr ⟨after, ?_⟩
  obtain rfl | ⟨c, rest, h⟩ := step_cases h
  · exact prompt
  · exact (exec_ended h).prompt after prompt

/-! O3 and O8: the reset state, and the standstill -/

/-- Settles O3: the emptied controller's cold start is the reset state, which has empty stores. -/
theorem resetIsTheColdStart : Obligations.ResetIsTheColdStart := by
  exact ⟨rfl, by decide⟩

theorem State.nextRequest_none {s : State} {st : Station}
    (h : s.working = false ∨ (s.links.get st).queue.length = 16 ∨ (s.links.get st).mailbox = []) :
    s.nextRequest st = none := by
  unfold State.nextRequest
  obtain h | h | h := h <;> simp [h, Config.queueSize]

theorem State.linkLive_of_not_working {s : State} (h : s.working = false) (st : Station) :
    s.linkLive st = false := by
  simp [State.linkLive, h]

/-- Settles O8: without a request of its kind a request command leaves the state, and without work every
event's condition fails. -/
theorem standstillTakesNothing : Obligations.StandstillTakesNothing := by
  refine ⟨fun c code st s request other => ?_, fun st s h => State.nextRequest_none h,
    fun s st bytes code n idle => ?_⟩
  · obtain ⟨handle, takes⟩ := exec_request request
    rw [takes]
    exact State.takeKind_idle handle other
  · have live := State.linkLive_of_not_working idle st
    refine ⟨?_, ?_, ?_, ?_, ?_, ?_, ?_, ?_, ?_, ?_, ?_, ?_⟩
    · change execUnknownMessageKind st s = _
      unfold execUnknownMessageKind
      exact State.take_idle s st _ _ fun f hf => nomatch (State.nextRequest_none (.inl idle)).symm.trans hf
    · change execFrameReceived st bytes s = _
      simp [execFrameReceived, live]
    · change execFrameSent st s = _
      unfold execFrameSent
      split <;> simp [live]
    · change execLineBreak st s = _
      simp [execLineBreak, live]
    · change execQuietLimit st s = _
      simp [execQuietLimit, idle]
    · change execLoadExpiry n s = _
      simp [execLoadExpiry, idle]
    · change execDischargeExpiry n s = _
      simp [execDischargeExpiry, idle]
    · change execTankReportExpiry s = _
      simp [execTankReportExpiry, idle]
    · change execSample code s = _
      simp [execSample, idle]
    · change execClockAdvance s = _
      simp [execClockAdvance, idle]
    · change execMoveTimerExpiry n s = _
      unfold execMoveTimerExpiry
      split <;> simp [idle]
    · change execTimeBaseSecond s = _
      simp [execTimeBaseSecond, idle]

end Sys2Proof.Machine

/-! The examination (spec/05 R84 to R94): the lane tests, the choice and the reason list. -/

namespace Sys2Proof.Machine

/-! The lane tests -/

theorem State.laneReason_eq_none {s : State} {mask : Nat} {u : UnitBody} {l : Lane} :
    s.laneReason mask u l = none ↔ ∀ x ∈ s.candidateTests mask u l, x.2 = false := by
  simp [State.laneReason, List.find?_eq_none]

theorem conflicts_false {seg : Nat} {p : LaneProfile} {g : DgGroup} {slot : Span} {v : Nat × UnitBody} :
    conflicts seg p g slot v = false ↔
      ∀ g', v.2.dg = some g' → g' ≠ g → (seg : Int) < (p.span v.1 v.2.length).distance slot := by
  unfold conflicts
  cases v.2.dg <;> simp

/-- No conflicting unit stands near the slot, table row by table row (R89). -/
theorem State.conflictNear_false {s : State} {p : LaneProfile} {g : DgGroup} {slot : Span} :
    s.conflictNear p g slot = false ↔ ∀ q ∈ s.lanes, q.2.profile.deck = p.deck →
      q.2.profile.row ≤ p.row + 1 → p.row ≤ q.2.profile.row + 1 →
      ∀ v ∈ q.2.standing, ∀ g', v.2.dg = some g' → g' ≠ g →
        (s.segregation : Int) < (q.2.profile.span v.1 v.2.length).distance slot := by
  have each : s.conflictNear p g slot = false ↔ ∀ q ∈ s.lanes, q.2.profile.near p = true →
      ∀ v ∈ q.2.standing, conflicts s.segregation q.2.profile g slot v = false := by
    simp only [State.conflictNear, List.any_eq_false, Bool.and_eq_true, List.any_eq_true, not_and,
      not_exists, Bool.not_eq_true]
  simp only [each, conflicts_false, LaneProfile.near, Bool.and_eq_true, decide_eq_true_eq, and_imp]

/-- The dangerous goods test, with what it asks of every table row (R89). -/
def State.dgClear (s : State) (u : UnitBody) (l : Lane) : Prop :=
  ∀ g, u.dg = some g → l.profile.dgPermitted = true ∧
    ∀ q ∈ s.lanes, q.2.profile.deck = l.profile.deck → q.2.profile.row ≤ l.profile.row + 1 →
      l.profile.row ≤ q.2.profile.row + 1 → ∀ v ∈ q.2.standing, ∀ g', v.2.dg = some g' → g' ≠ g →
        (s.segregation : Int) <
          (q.2.profile.span v.1 v.2.length).distance (l.profile.span (s.laneEnd l) u.length)

theorem State.laneReason_none_iff {s : State} {mask : Nat} {u : UnitBody} {l : Lane} :
    s.laneReason mask u l = none ↔ l.level ≤ mask ∧ s.laneSectionPending l = false ∧
      (s.displayed l = .openLane ∨ s.displayed l = .filling) ∧ l.inService = false ∧
      l.entries.length < 24 ∧ l.profile.kinds.has u.kind = true ∧
      s.laneEnd l + u.length ≤ l.profile.length ∧ u.height ≤ l.clearance ∧ orderFails l u.port = false ∧
      (u.reefer = true → l.reeferCount < l.profile.sockets) ∧ s.dgClear u l ∧
      l.mass + u.mass ≤ l.profile.massCap ∧
      s.zoneFails (s.slotZone l.profile (s.laneEnd l) u.length) u.mass = false ∧
      s.envelopeOk s.account (u.mass * l.profile.arm) = true := by
  have reefer : (u.reefer && decide (l.profile.sockets ≤ l.reeferCount)) = false ↔
      (u.reefer = true → l.reeferCount < l.profile.sockets) := by
    cases u.reefer <;> simp
  have full : decide (Config.laneEntries ≤ l.entries.length) = false ↔ l.entries.length < 24 := by
    simp only [decide_eq_false_iff_not, not_le]
    exact .rfl
  simp only [State.laneReason_eq_none, State.candidateTests, State.dgClear, List.forall_mem_cons, reefer, full]
  simp only [decide_eq_false_iff_not, not_lt, Bool.not_eq_false', Bool.or_eq_true, decide_eq_true_eq, List.not_mem_nil, false_implies, implies_true, and_true]
  cases u.dg with
  | none => simp only [true_and, reduceCtorEq, false_implies, implies_true]
  | some g => simp only [Bool.or_eq_false_iff, Bool.not_eq_false', State.conflictNear_false, Option.some.injEq,
      forall_eq']

theorem Lane.inService_false {l : Lane} : l.inService = false ↔ ∀ e ∈ l.entries, e.state = .stowed := by
  simp [Lane.inService]

theorem orderFails_false {l : Lane} {port : Nat} :
    orderFails l port = false ↔ ∀ e, l.entries.getLast? = some e → port ≤ e.unit.port := by
  unfold orderFails
  cases l.entries.getLast? <;> simp

theorem State.zoneFails_false {s : State} {z : Option Nat} {m : Nat} : s.zoneFails z m = false ↔
    ∀ n zone, z = some n → s.zones.get n = some zone → zone.confirmed + zone.pendingLoad + m ≤ zone.cap := by
  unfold State.zoneFails
  cases z with
  | none => simp
  | some n =>
    constructor
    · rintro h _ zone ⟨⟩ get
      simpa [get] using h
    · intro h
      cases get : s.zones.get n with
      | none => simp [get]
      | some zone => simpa [get] using h n zone rfl get

theorem State.envelopeOk_iff {s : State} {d : Int} : s.envelopeOk s.account d = true ↔
    (0 < d → s.account.tc + s.account.pPlus + d ≤ s.upperLimit) ∧
      (d < 0 → s.lowerLimit ≤ s.account.tc + s.account.pMinus + d) := by
  simp only [State.envelopeOk, Bool.and_eq_true, Bool.or_eq_true, decide_eq_true_eq]
  simp only [Account.upperWith, Account.lowerWith, Account.upper, Account.lower]
  rcases lt_trichotomy d 0 with down | rfl | up
  · rw [if_neg (by omega), if_pos down]
    omega
  · simp
  · rw [if_pos up, if_neg (by omega)]
    omega

theorem State.takes_of_passes {s : State} {mask : Nat} {u : UnitBody} {l : Lane}
    (h : s.laneReason mask u l = none) : s.Takes mask u l := by
  obtain ⟨level, sect, shown, idle, room, kind, length, height, order, reefer, dg, laneMass, zoneMass, heel⟩ :=
    State.laneReason_none_iff.mp h
  obtain ⟨upper, lower⟩ := State.envelopeOk_iff.mp heel
  exact ⟨level, sect, shown, Lane.inService_false.mp idle, room, kind, length, height,
    orderFails_false.mp order, reefer,
    fun g hg => ⟨(dg g hg).1, fun m k get => (dg g hg).2 (m, k) (Table.mem_of_get get)⟩, laneMass,
    State.zoneFails_false.mp zoneMass, upper, lower⟩

theorem State.passes_of_takes {s : State} {mask : Nat} {u : UnitBody} {l : Lane} (wf : s.tablesOk = true)
    (h : s.Takes mask u l) : s.laneReason mask u l = none := by
  have lanes := ((State.tablesOk_iff s).mp wf).1
  exact State.laneReason_none_iff.mpr ⟨h.level, h.sect, h.shown, Lane.inService_false.mpr h.idle, h.room,
    h.kind, h.length, h.height, orderFails_false.mpr h.order, h.reefer,
    fun g hg => ⟨(h.dg g hg).1, fun q hq => (h.dg g hg).2 q.1 q.2 ((Table.mem_iff_get lanes _ _).mp hq)⟩,
    h.laneMass, State.zoneFails_false.mpr h.zoneMass, State.envelopeOk_iff.mpr ⟨h.heelUpper, h.heelLower⟩⟩

/-! The choice -/

/-- The order of R92: level, length left, centred figure, number. -/
def Candidate.Before (a b : Candidate) : Prop :=
  a.level < b.level ∨ a.level = b.level ∧
    (a.left < b.left ∨ a.left = b.left ∧ (a.centred < b.centred ∨ a.centred = b.centred ∧ a.lane < b.lane))

theorem Candidate.better_iff (a b : Candidate) : a.better b = true ↔ a.Before b := by
  unfold Candidate.better Candidate.Before
  split_ifs <;> simp only [decide_eq_true_eq] <;> omega

theorem Candidate.Before.trans {a b c : Candidate} (h : a.Before b) (k : b.Before c) : a.Before c := by
  unfold Candidate.Before at *
  omega

theorem Candidate.before_of_not {a b : Candidate} (h : ¬ a.Before b) (ne : b ≠ a) : b.Before a := by
  by_contra k
  refine ne ?_
  obtain ⟨_, _, _, _⟩ := a
  obtain ⟨_, _, _, _⟩ := b
  simp only [Candidate.Before] at h k
  simp only [Candidate.mk.injEq]
  omega

/-- One comparison of the choice. -/
def pick (best : Option Candidate) (c : Candidate) : Option Candidate :=
  match best with
  | none => some c
  | some b => if c.better b then some c else some b

theorem pick_some (b c : Candidate) : ∃ d, pick (some b) c = some d ∧ (d = b ∨ d = c) ∧
    (d = b ∨ d.Before b) ∧ (d = c ∨ d.Before c) := by
  dsimp only [pick]
  split
  · rename_i better
    have := (Candidate.better_iff c b).mp better
    exact ⟨c, rfl, .inr rfl, .inr this, .inl rfl⟩
  · rename_i better
    by_cases e : b = c
    · exact ⟨b, rfl, .inl rfl, .inl rfl, .inl e⟩
    · rw [Candidate.better_iff] at better
      exact ⟨b, rfl, .inl rfl, .inl rfl, .inr (Candidate.before_of_not better e)⟩

/-- Choosing on from a candidate leaves one of them that goes before all the others. -/
theorem foldl_pick (cs : List Candidate) (b : Candidate) : ∃ c, cs.foldl pick (some b) = some c ∧
    c ∈ b :: cs ∧ ∀ d ∈ b :: cs, c = d ∨ c.Before d := by
  induction cs generalizing b with
  | nil => exact ⟨b, rfl, by simp, by simp⟩
  | cons x cs ih =>
    obtain ⟨y, picked, one, beforeB, beforeX⟩ := pick_some b x
    obtain ⟨c, folded, mem, before⟩ := ih y
    refine ⟨c, by rw [List.foldl_cons, picked, folded], ?_, ?_⟩
    · rcases List.mem_cons.mp mem with rfl | mem
      · rcases one with rfl | rfl <;> simp
      · simp [mem]
    · have via {d : Candidate} (h : y = d ∨ y.Before d) : c = d ∨ c.Before d := by
        rcases before y (by simp) with rfl | k
        · exact h
        · rcases h with rfl | h
          · exact .inr k
          · exact .inr (k.trans h)
      intro d hd
      simp only [List.mem_cons] at hd
      rcases hd with rfl | rfl | hd
      · exact via beforeB
      · exact via beforeX
      · exact before d (by simp [hd])

theorem choose_some {cs : List Candidate} {c : Candidate} (h : choose cs = some c) :
    c ∈ cs ∧ ∀ d ∈ cs, c = d ∨ c.Before d := by
  cases cs with
  | nil => cases h
  | cons b cs =>
    obtain ⟨d, folded, mem, before⟩ := foldl_pick cs b
    cases h.symm.trans folded
    exact ⟨mem, before⟩

theorem choose_none {cs : List Candidate} (h : choose cs = none) : cs = [] := by
  cases cs with
  | nil => rfl
  | cons b cs =>
    obtain ⟨d, folded, -⟩ := foldl_pick cs b
    cases h.symm.trans folded

/-! The examination -/

theorem State.limitReached_iff (s : State) (r : Ramp) : s.limitReached r = true ↔
    16 ≤ s.movements.length ∨ 6 ≤ r.count ∨ 640 ≤ s.poolInUse := by
  simp only [State.limitReached, Bool.or_eq_true, decide_eq_true_eq, or_assoc]
  exact .rfl

/-- The candidates of an examination: the lanes of the reach that pass every test. -/
def State.candidates (s : State) (r : Ramp) (u : UnitBody) : List Candidate :=
  (s.examine r u).filterMap fun x => if x.2.2.isNone then some (s.candidate u x.1 x.2.1) else none

theorem State.mem_candidates {s : State} {r : Ramp} {u : UnitBody} {c : Candidate} :
    c ∈ s.candidates r u ↔ ∃ n ∈ r.reach, ∃ l, s.lanes.get n = some l ∧
      s.laneReason r.mask u l = none ∧ s.candidate u n l = c := by
  simp only [State.candidates, State.examine, List.mem_filterMap, Option.map_eq_some_iff]
  constructor
  · rintro ⟨x, ⟨n, hn, l, lane, rfl⟩, h⟩
    simp only [Option.isNone_iff_eq_none, Option.ite_none_right_eq_some, Option.some.injEq] at h
    exact ⟨n, hn, l, lane, h.1, h.2⟩
  · rintro ⟨n, hn, l, lane, passes, rfl⟩
    exact ⟨_, ⟨n, hn, l, lane, rfl⟩, by simp [passes]⟩

theorem State.evaluate_of_free {s : State} {r : Ramp} {u : UnitBody} (h : s.limitReached r = false) :
    s.evaluate r u = match choose (s.candidates r u) with
      | some c => .chosen c.lane
      | none => .held (gatherReasons ((s.examine r u).filterMap fun x => x.2.2)) := by
  unfold State.evaluate
  rw [if_neg (by simp [h])]
  rfl

/-- An examination that chooses lane `n` found no limit reached, and `n` is the lane of a candidate that goes
before all the others. -/
theorem State.evaluate_chosen {s : State} {r : Ramp} {u : UnitBody} {n : Nat}
    (h : s.evaluate r u = .chosen n) : s.limitReached r = false ∧ n ∈ r.reach ∧
      ∃ l, s.lanes.get n = some l ∧ s.laneReason r.mask u l = none ∧
        ∀ d ∈ s.candidates r u, s.candidate u n l = d ∨ (s.candidate u n l).Before d := by
  cases limit : s.limitReached r with
  | true =>
    unfold State.evaluate at h
    rw [if_pos limit] at h
    cases h
  | false =>
    rw [State.evaluate_of_free limit] at h
    split at h
    · rename_i c chosen
      obtain ⟨mem, before⟩ := choose_some chosen
      obtain ⟨m, hm, l, lane, passes, rfl⟩ := State.mem_candidates.mp mem
      cases h
      exact ⟨rfl, hm, l, lane, passes, before⟩
    · cases h

/-- An examination that chooses none with no limit reached found no candidate. -/
theorem State.evaluate_held {s : State} {r : Ramp} {u : UnitBody} {rs : Reasons}
    (limit : s.limitReached r = false) (h : s.evaluate r u = .held rs) : s.candidates r u = [] ∧
      rs = gatherReasons ((s.examine r u).filterMap fun x => x.2.2) := by
  rw [State.evaluate_of_free limit] at h
  split at h
  · cases h
  · rename_i none_
    cases h
    exact ⟨choose_none none_, rfl⟩

theorem State.evaluate_chosen_takes {s : State} {r : Ramp} {u : UnitBody} {n : Nat}
    (h : s.evaluate r u = .chosen n) : ∃ l, s.lanes.get n = some l ∧ s.Takes r.mask u l := by
  obtain ⟨-, -, l, lane, passes, -⟩ := State.evaluate_chosen h
  exact ⟨l, lane, State.takes_of_passes passes⟩

theorem State.limitReached_false {s : State} {r : Ramp} : s.limitReached r = false ↔
    s.movements.length < 16 ∧ r.count < 6 ∧ s.poolInUse < 640 := by
  rw [← Bool.not_eq_true, State.limitReached_iff]
  omega

/-- Settles O39: the tests of a lane are the conditions of `State.Takes`, and a choice is made of the lanes
that pass them. -/
theorem chosenLaneFitsTheUnit : Obligations.ChosenLaneFitsTheUnit := by
  refine ⟨fun s r u n h => ?_, fun s mask u l wf => ⟨State.takes_of_passes, State.passes_of_takes wf⟩,
    fun s r u m l wf movements count pool reach lane takes => ?_⟩
  · obtain ⟨limit, reach, -⟩ := State.evaluate_chosen h
    obtain ⟨movements, count, pool⟩ := State.limitReached_false.mp limit
    exact ⟨movements, count, pool, reach, State.evaluate_chosen_takes h⟩
  · have limit := State.limitReached_false.mpr ⟨movements, count, pool⟩
    have candidate : s.candidate u m l ∈ s.candidates r u :=
      State.mem_candidates.mpr ⟨m, reach, l, lane, State.passes_of_takes wf takes, rfl⟩
    cases e : s.evaluate r u with
    | chosen n => exact ⟨n, rfl⟩
    | held rs =>
      rw [(State.evaluate_held limit e).1] at candidate
      cases candidate

/-! The reason list -/

theorem gatherReasons_order (found : List WaitReason) :
    ((gatherReasons found).map (·.1)).Sublist allReasons := by
  have kept (l : List WaitReason) : ((l.filterMap fun w =>
      if found.count w = 0 then none else some (w, found.count w)).map (·.1)).Sublist l := by
    induction l with
    | nil => exact .slnil
    | cons w l ih =>
      rw [List.filterMap_cons]
      split
      · exact ih.cons w
      · rename_i found
        split at found
        · cases found
        · cases found
          exact ih.cons_cons w
  exact kept allReasons

theorem mem_gatherReasons {found : List WaitReason} {w : WaitReason} {k : Nat} :
    (w, k) ∈ gatherReasons found ↔ w ∈ allReasons ∧ 0 < k ∧ k = found.count w := by
  simp only [gatherReasons, List.mem_filterMap, Option.ite_none_left_eq_some, Option.some.injEq,
    Prod.mk.injEq]
  constructor
  · rintro ⟨v, listed, found, rfl, rfl⟩
    exact ⟨listed, Nat.pos_of_ne_zero found, rfl⟩
  · rintro ⟨listed, pos, rfl⟩
    exact ⟨w, listed, pos.ne', rfl, rfl⟩

/-- A lane's reason is one of the fourteen of Table 5-3. -/
theorem State.laneReason_listed {s : State} {mask : Nat} {u : UnitBody} {l : Lane} {w : WaitReason}
    (h : s.laneReason mask u l = some w) : w ∈ allReasons := by
  have tests : (s.candidateTests mask u l).map (·.1) = allReasons := rfl
  obtain ⟨x, found, rfl⟩ := Option.map_eq_some_iff.mp h
  rw [← tests]
  exact List.mem_map_of_mem (List.mem_of_find?_eq_some found)

/-- The reasons found, counted lane by lane of the reach. -/
theorem State.examine_count (s : State) (r : Ramp) (u : UnitBody) (w : WaitReason) :
    ((s.examine r u).filterMap fun x => x.2.2).count w =
      (r.reach.filter fun m => decide ((s.lanes.get m).bind (s.laneReason r.mask u) = some w)).length := by
  unfold State.examine
  induction r.reach with
  | nil => rfl
  | cons m reach ih =>
    cases lane : s.lanes.get m with
    | none => simpa [lane] using ih
    | some l =>
      cases reason : s.laneReason r.mask u l with
      | none => simpa [lane, reason] using ih
      | some v => by_cases e : v = w <;> simpa [lane, reason, e, List.filter_cons] using ih

/-- Settles O40: an examination ends at a reached limit, at the candidate that goes before the others, or with
the reasons counted. -/
theorem examinationFollowsItsSteps : Obligations.ExaminationFollowsItsSteps := by
  intro s r u
  refine ⟨fun limit => ?_, fun l w => ?_, fun n l chosen lane m k reach other passes ne => ?_,
    fun movements count pool rs held => ?_⟩
  · unfold State.evaluate
    rw [if_pos ((s.limitReached_iff r).mpr limit)]
  · simp only [State.laneReason, Option.map_eq_some_iff, List.find?_eq_some_iff_append]
    constructor
    · rintro ⟨⟨v, b⟩, ⟨fails, before, after, tests, pass⟩, rfl⟩
      obtain rfl : b = true := fails
      exact ⟨before, after, tests, by simpa using pass⟩
    · rintro ⟨before, after, tests, pass⟩
      exact ⟨(w, true), ⟨rfl, before, after, tests, by simpa using pass⟩, rfl⟩
  · obtain ⟨-, -, l', lane', -, before⟩ := State.evaluate_chosen chosen
    cases lane.symm.trans lane'
    obtain e | b := before _ (State.mem_candidates.mpr ⟨m, reach, k, other, passes, rfl⟩)
    · exact absurd (congrArg Candidate.lane e).symm ne
    · exact b
  · obtain ⟨none_, rfl⟩ := State.evaluate_held (State.limitReached_false.mpr ⟨movements, count, pool⟩) held
    refine ⟨fun m k reach lane passes => ?_, gatherReasons_order _, fun w k => ?_⟩
    · have := State.mem_candidates.mpr ⟨m, reach, k, lane, passes, rfl⟩
      rw [none_] at this
      cases this
    · rw [mem_gatherReasons, State.examine_count]
      refine ⟨And.right, fun h => ⟨?_, h⟩⟩
      obtain ⟨m, hm⟩ := List.exists_mem_of_length_pos (h.2 ▸ h.1)
      obtain ⟨l, -, reason⟩ := Option.bind_eq_some_iff.mp (of_decide_eq_true (List.mem_filter.mp hm).2)
      exact State.laneReason_listed reason

end Sys2Proof.Machine

/-! Bookings (spec/03 R43, R44): where a booking stands in the lanes, what its record says, and how the
operations of the register change it. -/

namespace Sys2Proof.Machine

/-! The state of a booking's record -/

/-- The state of a booking's record, if it has one. -/
def stateIn (register : List UnitRecord) (b : Booking) : Option UnitState :=
  (register.find? fun r => decide (r.booking = b)).map (·.state)

theorem stateIn_eq_none {register : List UnitRecord} {b : Booking} :
    stateIn register b = none ↔ ∀ r ∈ register, r.booking ≠ b := by
  simp [stateIn]

theorem stateIn_eq_some {register : List UnitRecord} (nodup : (register.map (·.booking)).Nodup) {b : Booking}
    {st : UnitState} : stateIn register b = some st ↔ ∃ r ∈ register, r.booking = b ∧ r.state = st := by
  simp only [stateIn, Option.map_eq_some_iff]
  constructor
  · rintro ⟨r, found, rfl⟩
    exact ⟨r, List.mem_of_find?_eq_some found, by simpa using List.find?_some found, rfl⟩
  · rintro ⟨r, mem, rfl, rfl⟩
    cases found : register.find? fun q => decide (q.booking = r.booking) with
    | none => simpa using List.find?_eq_none.mp found r mem
    | some q =>
      have same := List.inj_on_of_nodup_map nodup (List.mem_of_find?_eq_some found) mem
        (by simpa using List.find?_some found)
      exact ⟨q, rfl, congrArg _ same⟩

theorem State.stateIn_eq (s : State) (b : Booking) :
    stateIn s.register b = (s.findRecord b).map (·.state) := rfl

/-- A record of booking `b` takes a state, the others stay. -/
theorem stateIn_setState (register : List UnitRecord) (b c : Booking) (st : UnitState) :
    stateIn (register.map fun r => if r.booking = b then { r with state := st } else r) c =
      if c = b then (stateIn register c).map fun _ => st else stateIn register c := by
  unfold stateIn
  induction register with
  | nil => simp
  | cons r rest ih =>
    by_cases rc : r.booking = c
    · subst rc
      by_cases rb : r.booking = b <;> simp [rb]
    · by_cases rb : r.booking = b
      · subst rb
        simpa [rc] using ih
      · simpa [rc, rb] using ih

theorem bookings_setState (register : List UnitRecord) (b : Booking) (st : UnitState) :
    (register.map fun r => if r.booking = b then { r with state := st } else r).map (·.booking) =
      register.map (·.booking) := by
  rw [List.map_map]
  congr 1
  funext r
  simp only [Function.comp]
  split <;> rfl

theorem State.stateIn_setUnitState (s : State) (b c : Booking) (st : UnitState) :
    stateIn (s.setUnitState b st).register c =
      if c = b then (stateIn s.register c).map fun _ => st else stateIn s.register c :=
  stateIn_setState ..

theorem State.bookings_setUnitState (s : State) (b : Booking) (st : UnitState) :
    (s.setUnitState b st).register.map (·.booking) = s.register.map (·.booking) :=
  bookings_setState ..

theorem State.stateIn_removeRecord (s : State) (b c : Booking) :
    stateIn (s.removeRecord b).register c = if c = b then none else stateIn s.register c := by
  unfold State.removeRecord stateIn
  dsimp only
  rw [List.find?_filter]
  by_cases e : c = b
  · subst e
    simp
  · rw [if_neg e]
    congr 2
    funext r
    by_cases rc : r.booking = c
    · simp [rc, e]
    · simp [rc]

theorem State.bookings_removeRecord {s : State} {b : Booking} (h : (s.register.map (·.booking)).Nodup) :
    ((s.removeRecord b).register.map (·.booking)).Nodup :=
  h.sublist (List.filter_sublist.map _)

/-- Replacing the record of another booking leaves a booking's record. -/
theorem stateIn_replace_of_ne (register : List UnitRecord) (u : UnitRecord) {c : Booking}
    (h : c ≠ u.booking) :
    stateIn (register.map fun q => if q.booking = u.booking then u else q) c = stateIn register c := by
  unfold stateIn
  induction register with
  | nil => rfl
  | cons r rest ih =>
    by_cases ru : r.booking = u.booking
    · simpa [ru, h.symm] using ih
    · by_cases rc : r.booking = c
      · simp [rc, h]
      · simpa [ru, rc] using ih

theorem stateIn_replace_self (register : List UnitRecord) (u : UnitRecord)
    (h : ∃ q ∈ register, q.booking = u.booking) :
    stateIn (register.map fun q => if q.booking = u.booking then u else q) u.booking = some u.state := by
  unfold stateIn
  induction register with
  | nil => simp at h
  | cons r rest ih =>
    by_cases ru : r.booking = u.booking
    · simp [ru]
    · have tail : ∃ q ∈ rest, q.booking = u.booking := by simpa [ru] using h
      simpa [ru] using ih tail

theorem State.stateIn_putRecord (s : State) (u : UnitRecord) (c : Booking) :
    stateIn (s.putRecord u).register c = if c = u.booking then some u.state else stateIn s.register c := by
  unfold State.putRecord
  split
  · rename_i held
    split
    · rename_i e
      subst e
      exact stateIn_replace_self _ _ (by simpa using held)
    · rename_i ne
      exact stateIn_replace_of_ne _ _ ne
  · rename_i other
    simp only [List.any_eq_true, decide_eq_true_eq, not_exists, not_and] at other
    unfold stateIn
    dsimp only
    rw [List.find?_append]
    split
    · rename_i e
      subst e
      rw [List.find?_eq_none.mpr fun q hq => by simpa using other q hq]
      simp
    · rename_i ne
      simp [Ne.symm ne]

theorem State.bookings_putRecord {s : State} {u : UnitRecord} (h : (s.register.map (·.booking)).Nodup) :
    ((s.putRecord u).register.map (·.booking)).Nodup := by
  unfold State.putRecord
  split
  · dsimp only
    rw [List.map_map]
    have same : ((fun r : UnitRecord => r.booking) ∘ fun q => if q.booking = u.booking then u else q) =
        fun q => q.booking := by
      funext q
      simp only [Function.comp]
      split
      · rename_i e
        exact e.symm
      · rfl
    rwa [same]
  · rename_i other
    simp only [List.any_eq_true, decide_eq_true_eq, not_exists, not_and] at other
    simp only [List.map_append, List.map_cons, List.map_nil]
    refine List.nodup_append.mpr ⟨h, by simp, ?_⟩
    rintro _ mem _ last
    obtain ⟨q, hq, rfl⟩ := List.mem_map.mp mem
    simp only [List.mem_singleton] at last
    exact last ▸ other q hq

/-! Where a booking stands in the lanes -/

/-- How a lane holds a booking: aboard, on its way in, or in a LOAD check record. -/
inductive Holding where
  | aboard
  | reserved
  | check

/-- The state of the record that goes with it (R43, R44). -/
def Holding.record : Holding → Option UnitState
  | .aboard => none
  | .reserved => some .reserved
  | .check => some .check

theorem Holding.record_injective {x y : Holding} (h : x.record = y.record) : x = y := by
  cases x <;> cases y <;> simp_all [Holding.record]

def Entry.holding (e : Entry) : Holding := if e.state = .reserved then .reserved else .aboard

/-- The bookings a lane holds, from the closed end. -/
def Lane.holds (l : Lane) : List (Booking × Holding) :=
  l.entries.map (fun e => (e.booking, e.holding)) ++
    l.loadCheck?.toList.map fun c => (c.1.booking, .check)

/-- The bookings the lanes hold. -/
def holdings (lanes : Table Lane) : List (Booking × Holding) := lanes.flatMap (·.2.holds)

theorem holdings_bookings (lanes : Table Lane) : (holdings lanes).map (·.1) = heldBookings lanes := by
  unfold holdings heldBookings
  rw [List.map_flatMap]
  congr 1
  funext p
  simp [Lane.holds, Lane.units, Function.comp_def]

theorem mem_holdings {lanes : Table Lane} {b : Booking} {x : Holding} :
    (b, x) ∈ holdings lanes ↔ ∃ p ∈ lanes, (b, x) ∈ p.2.holds := by
  simp [holdings]

theorem Lane.mem_holds {l : Lane} {b : Booking} {x : Holding} : (b, x) ∈ l.holds ↔
    (∃ e ∈ l.entries, e.booking = b ∧ e.holding = x) ∨
      ∃ c, l.loadCheck? = some c ∧ c.1.booking = b ∧ x = .check := by
  simp [Lane.holds, eq_comm]

/-- No booking is held twice, and each record agrees with the place of its booking (R43, R44). -/
structure Booked (lanes : Table Lane) (register : List UnitRecord) : Prop where
  records : (register.map (·.booking)).Nodup
  bookings : ((holdings lanes).map (·.1)).Nodup
  stands : ∀ b x, (b, x) ∈ holdings lanes → stateIn register b = x.record
  placed : ∀ b x st, stateIn register b = some st → x.record = some st → (b, x) ∈ holdings lanes

theorem mem_holdings_reserved {lanes : Table Lane} {b : Booking} : (b, .reserved) ∈ holdings lanes ↔
    ∃ p ∈ lanes, ∃ e ∈ p.2.entries, e.booking = b ∧ e.state = .reserved := by
  have state (e : Entry) : e.holding = .reserved ↔ e.state = .reserved := by
    unfold Entry.holding
    split <;> simp_all
  simp [mem_holdings, Lane.mem_holds, state]

theorem mem_holdings_check {lanes : Table Lane} {b : Booking} : (b, .check) ∈ holdings lanes ↔
    ∃ p ∈ lanes, ∃ c, p.2.loadCheck? = some c ∧ c.1.booking = b := by
  have state (e : Entry) : e.holding ≠ .check := by
    unfold Entry.holding
    split <;> simp
  simp [mem_holdings, Lane.mem_holds, state]

theorem UnitRecord.placed_iff {lanes : Table Lane} {r : UnitRecord} : r.placed lanes = true ↔
    (∀ x, x.record = some r.state → (r.booking, x) ∈ holdings lanes) ∧
      ((∀ x : Holding, x.record ≠ some r.state) → r.booking ∉ heldBookings lanes) := by
  have entry : (lanes.any fun p => p.2.entries.any fun e =>
      decide (e.booking = r.booking) && decide (e.state = .reserved)) = true ↔
      (r.booking, .reserved) ∈ holdings lanes := by
    rw [mem_holdings_reserved]
    simp
  have check : (lanes.any fun p => p.2.loadCheck?.any fun c => decide (c.1.booking = r.booking)) = true ↔
      (r.booking, .check) ∈ holdings lanes := by
    rw [mem_holdings_check]
    simp [Option.any_eq_true]
  have each {P : Holding → Prop} : (∀ x, P x) ↔ P .aboard ∧ P .reserved ∧ P .check :=
    ⟨fun h => ⟨h _, h _, h _⟩, fun ⟨a, b, c⟩ x => by cases x <;> assumption⟩
  unfold UnitRecord.placed
  dsimp only
  cases state : r.state <;> simp [each, Holding.record, entry, check]

theorem recordless {register : List UnitRecord} {b : Booking} :
    (register.any fun r => decide (r.booking = b)) = false ↔ stateIn register b = none := by
  simp [stateIn_eq_none]

theorem booked_iff {lanes : Table Lane} {register : List UnitRecord} : Booked lanes register ↔
    (register.map (·.booking)).Nodup ∧ bookingsOk lanes register = true := by
  have rows : (lanes.all fun p => p.2.entries.all (fun e =>
      (decide (e.state = .reserved)) == register.any fun r => decide (r.booking = e.booking)) &&
      p.2.loadCheck?.all fun c => register.any fun r => decide (r.booking = c.1.booking)) = true ↔
      ∀ b x, (b, x) ∈ holdings lanes → (stateIn register b = none ↔ x.record = none) := by
    have entry (e : Entry) : ((decide (e.state = .reserved)) ==
        register.any fun r => decide (r.booking = e.booking)) = true ↔
        (stateIn register e.booking = none ↔ e.holding.record = none) := by
      rw [← recordless, Entry.holding]
      by_cases reserved : e.state = .reserved <;> simp [reserved, Holding.record]
    have check (b : Booking) : (register.any fun r => decide (r.booking = b)) = true ↔
        (stateIn register b = none ↔ Holding.check.record = none) := by
      rw [← recordless]
      simp [Holding.record]
    simp only [mem_holdings, Lane.mem_holds, List.all_eq_true, Bool.and_eq_true, entry]
    constructor
    · rintro h b x ⟨p, mem, ⟨e, inside, rfl, rfl⟩ | ⟨c, held, rfl, rfl⟩⟩
      · exact (h p mem).1 e inside
      · have := (h p mem).2
        rw [held] at this
        exact (check _).mp this
    · intro h p mem
      refine ⟨fun e inside => h _ _ ⟨p, mem, .inl ⟨e, inside, rfl, rfl⟩⟩, ?_⟩
      cases held : p.2.loadCheck? with
      | none => rfl
      | some c => exact (check _).mpr (h _ _ ⟨p, mem, .inr ⟨c, held, rfl, rfl⟩⟩)
  unfold bookingsOk
  rw [Bool.and_eq_true, Bool.and_eq_true, decide_eq_true_eq, ← holdings_bookings, rows]
  simp only [List.all_eq_true, UnitRecord.placed_iff, ← holdings_bookings]
  constructor
  · rintro ⟨records, bookings, stands, placed⟩
    refine ⟨records, ⟨bookings, fun r mem => ⟨fun x rec => ?_, fun other => ?_⟩⟩, fun b x mem => ?_⟩
    · exact placed _ x r.state ((stateIn_eq_some records).mpr ⟨r, mem, rfl, rfl⟩) rec
    · rintro held
      obtain ⟨⟨b, x⟩, held, rfl⟩ := List.mem_map.mp held
      have := (stateIn_eq_some records).mpr ⟨r, mem, rfl, rfl⟩
      rw [stands _ x held] at this
      exact other x this
    · rw [stands b x mem]
  · rintro ⟨records, ⟨bookings, placed⟩, agree⟩
    refine ⟨records, bookings, fun b x mem => ?_, fun b x st here rec => ?_⟩
    · cases here : stateIn register b with
      | none => exact ((agree b x mem).mp here).symm
      | some st =>
        obtain ⟨r, inside, rfl, rfl⟩ := (stateIn_eq_some records).mp here
        obtain ⟨matching, other⟩ := placed r inside
        by_cases any : ∃ y : Holding, y.record = some r.state
        · obtain ⟨y, rec⟩ := any
          have same := List.inj_on_of_nodup_map bookings mem (matching y rec) rfl
          cases same
          exact rec.symm
        · push Not at any
          exact absurd (List.mem_map_of_mem (f := (·.1)) mem) (other any)
    · obtain ⟨r, inside, rfl, rfl⟩ := (stateIn_eq_some records).mp here
      exact (placed r inside).1 x rec

/-! What changes one booking -/

/-- The records of all other bookings are in their states. -/
structure OthersStay (register register' : List UnitRecord) (b : Booking) : Prop where
  records : (register.map (·.booking)).Nodup → (register'.map (·.booking)).Nodup
  others : ∀ c, c ≠ b → stateIn register' c = stateIn register c

theorem OthersStay.setUnitState (s : State) (b : Booking) (st : UnitState) :
    OthersStay s.register (s.setUnitState b st).register b where
  records h := by rwa [State.bookings_setUnitState]
  others c ne := by rw [State.stateIn_setUnitState, if_neg ne]

theorem OthersStay.removeRecord (s : State) (b : Booking) :
    OthersStay s.register (s.removeRecord b).register b where
  records := State.bookings_removeRecord
  others c ne := by rw [State.stateIn_removeRecord, if_neg ne]

theorem OthersStay.putRecord (s : State) (u : UnitRecord) :
    OthersStay s.register (s.putRecord u).register u.booking where
  records := State.bookings_putRecord
  others c ne := by rw [State.stateIn_putRecord, if_neg ne]

theorem OthersStay.refl (register : List UnitRecord) (b : Booking) : OthersStay register register b :=
  ⟨id, fun _ _ => rfl⟩

/-- A booking's place in the lanes and its record change together. -/
theorem Booked.change {lanes lanes' : Table Lane} {register register' : List UnitRecord}
    {pre post old new : List (Booking × Holding)} {b : Booking} (h : Booked lanes register)
    (before : holdings lanes = pre ++ old ++ post) (after : holdings lanes' = pre ++ new ++ post)
    (away : ∀ x, (b, x) ∉ pre ++ post) (hold : ∀ p ∈ old, p.1 = b) (hnew : ∀ p ∈ new, p.1 = b)
    (one : new.length ≤ 1) (stay : OthersStay register register' b)
    (stands : ∀ x, (b, x) ∈ new → stateIn register' b = x.record)
    (placed : ∀ x st, stateIn register' b = some st → x.record = some st → (b, x) ∈ new) :
    Booked lanes' register' := by
  have elsewhere {c : Booking} (x : Holding) (ne : c ≠ b) :
      (c, x) ∈ holdings lanes' ↔ (c, x) ∈ holdings lanes := by
    have notNew : (c, x) ∉ new := fun m => ne (hnew _ m)
    have notOld : (c, x) ∉ old := fun m => ne (hold _ m)
    simp [before, after, notNew, notOld]
  have here (x : Holding) : (b, x) ∈ holdings lanes' ↔ (b, x) ∈ new := by
    have := away x
    simp only [List.mem_append, not_or] at this
    simp [after, this]
  refine ⟨stay.records h.records, ?_, fun c x mem => ?_, fun c x st rec => ?_⟩
  · have bookings := h.bookings
    rw [before] at bookings
    have rest : ((pre ++ post).map (·.1)).Nodup := by
      refine bookings.sublist ?_
      rw [List.append_assoc]
      exact ((List.sublist_append_right _ _).append_left _).map _
    have absent : b ∉ (pre ++ post).map (·.1) := by
      intro mem
      obtain ⟨⟨_, x⟩, inside, rfl⟩ := List.mem_map.mp mem
      exact away x inside
    rw [after]
    match new, hnew, one with
    | [], _, _ => simpa using rest
    | [p], hnew, _ =>
      obtain rfl := hnew p (by simp)
      have perm : (pre ++ [p] ++ post).Perm (p :: (pre ++ post)) := by
        simp
      exact (perm.map _).nodup_iff.mpr (List.nodup_cons.mpr ⟨absent, rest⟩)
  · by_cases e : c = b
    · subst e
      exact stands x ((here x).mp mem)
    · rw [stay.others c e]
      exact h.stands c x ((elsewhere x e).mp mem)
  · by_cases e : c = b
    · subst e
      exact fun k => (here x).mpr (placed x st rec k)
    · rw [stay.others c e] at rec
      exact fun k => (elsewhere x e).mpr (h.placed c x st rec k)

/-- A booking whose record says that it stands nowhere in the lanes does so. -/
theorem Booked.nowhere {lanes : Table Lane} {register : List UnitRecord} {b : Booking} {st : UnitState}
    (h : Booked lanes register) (here : stateIn register b = some st) (hr : st ≠ .reserved)
    (hc : st ≠ .check) (x : Holding) : (b, x) ∉ holdings lanes := by
  intro mem
  have := (h.stands b x mem).symm.trans here
  cases x <;> simp_all [Holding.record]

/-- A record of a booking that stands nowhere in the lanes changes. -/
theorem Booked.record {lanes : Table Lane} {register register' : List UnitRecord} {b : Booking}
    (h : Booked lanes register) (nowhere : ∀ x, (b, x) ∉ holdings lanes)
    (stay : OthersStay register register' b) (hr : stateIn register' b ≠ some .reserved)
    (hc : stateIn register' b ≠ some .check) : Booked lanes register' := by
  refine h.change (pre := holdings lanes) (post := []) (old := []) (new := []) (b := b) (by simp) (by simp)
    (by simpa using nowhere) (by simp) (by simp) (by simp) stay (by simp) fun x st here rec => ?_
  cases x <;> simp_all [Holding.record]

/-! The Waiting List -/

/-- The waiting elements are the units whose records are WAITING, each once (R40, R124). -/
structure Waits (waiting : List Waiting) (register : List UnitRecord) : Prop where
  once : (waiting.map (·.booking)).Nodup
  waits : ∀ b, stateIn register b = some .waiting ↔ b ∈ waiting.map (·.booking)

theorem State.waitingOk_iff (s : State) : s.waitingOk = true ↔
    (s.register.map (·.booking)).Nodup ∧ (s.store.image.register.map (·.booking)).Nodup ∧
      Waits s.waiting s.register := by
  have listed (b : Booking) : (s.waiting.any fun w => decide (w.booking = b)) = true ↔
      b ∈ s.waiting.map (·.booking) := by simp
  have record (r : UnitRecord) : ((decide (r.state = .waiting)) ==
      s.waiting.any fun w => decide (w.booking = r.booking)) = true ↔
      (r.state = .waiting ↔ r.booking ∈ s.waiting.map (·.booking)) := by
    rw [← listed, beq_iff_eq, Bool.eq_iff_iff, decide_eq_true_eq]
  have recorded (w : Waiting) : (s.register.any fun r => decide (r.booking = w.booking)) = true ↔
      stateIn s.register w.booking ≠ none := by
    rw [← Bool.not_eq_false, ne_eq, not_iff_not]
    exact recordless
  unfold State.waitingOk
  simp only [Bool.and_eq_true, decide_eq_true_eq, List.all_eq_true, record, recorded]
  constructor
  · rintro ⟨⟨⟨⟨records, image⟩, once⟩, states⟩, known⟩
    refine ⟨records, image, once, fun b => ⟨fun waiting => ?_, fun mem => ?_⟩⟩
    · obtain ⟨r, inside, rfl, state⟩ := (stateIn_eq_some records).mp waiting
      exact (states r inside).mp state
    · obtain ⟨w, inside, rfl⟩ := List.mem_map.mp mem
      obtain ⟨st, here⟩ := Option.ne_none_iff_exists'.mp (known w inside)
      obtain ⟨r, held, booking, rfl⟩ := (stateIn_eq_some records).mp here
      rw [here, (states r held).mpr (booking ▸ mem)]
  · rintro ⟨records, image, once, waits⟩
    refine ⟨⟨⟨⟨records, image⟩, once⟩, fun r mem => ?_⟩, fun w mem => ?_⟩
    · rw [← waits, stateIn_eq_some records]
      constructor
      · exact fun state => ⟨r, mem, rfl, state⟩
      · rintro ⟨q, inside, booking, state⟩
        exact List.inj_on_of_nodup_map records mem inside booking.symm ▸ state
    · rw [(waits w.booking).mpr (List.mem_map_of_mem mem)]
      simp

/-- A record changes its state, and is not WAITING before or behind the change. -/
theorem Waits.record {waiting : List Waiting} {register register' : List UnitRecord} {b : Booking}
    (h : Waits waiting register) (stay : OthersStay register register' b)
    (before : stateIn register b ≠ some .waiting) (after : stateIn register' b ≠ some .waiting) :
    Waits waiting register' := by
  refine ⟨h.once, fun c => ?_⟩
  by_cases e : c = b
  · subst e
    have out : c ∉ waiting.map (·.booking) := fun mem => before ((h.waits c).mpr mem)
    exact ⟨fun w => absurd w after, fun mem => absurd mem out⟩
  · rw [stay.others c e, h.waits]

/-- The element of a booking leaves the list, and its record is no longer WAITING. -/
theorem Waits.drop {s : State} {register' : List UnitRecord} {b : Booking} (h : Waits s.waiting s.register)
    (stay : OthersStay s.register register' b) (after : stateIn register' b ≠ some .waiting) :
    Waits (s.dropWaiting b).waiting register' := by
  have kept (c : Booking) : c ∈ (s.dropWaiting b).waiting.map (·.booking) ↔
      c ≠ b ∧ c ∈ s.waiting.map (·.booking) := by
    simp only [State.dropWaiting, List.mem_map, List.mem_filter, decide_eq_true_eq]
    constructor
    · rintro ⟨w, ⟨mem, ne⟩, rfl⟩
      exact ⟨ne, w, mem, rfl⟩
    · rintro ⟨ne, w, mem, rfl⟩
      exact ⟨w, ⟨mem, ne⟩, rfl⟩
  refine ⟨h.once.sublist (List.filter_sublist.map _), fun c => ?_⟩
  rw [kept]
  by_cases e : c = b
  · subst e
    simp [after]
  · rw [stay.others c e, h.waits]
    simp [e]

/-- A unit joins the list, and its record becomes WAITING. -/
theorem Waits.join {s : State} {register' : List UnitRecord} {w : Waiting} (h : Waits s.waiting s.register)
    (stay : OthersStay s.register register' w.booking) (before : stateIn s.register w.booking ≠ some .waiting)
    (after : stateIn register' w.booking = some .waiting) : Waits (s.waiting ++ [w]) register' := by
  have out : w.booking ∉ s.waiting.map (·.booking) := fun mem => before ((h.waits _).mpr mem)
  refine ⟨?_, fun c => ?_⟩
  · rw [List.map_append]
    exact List.nodup_append.mpr ⟨h.once, by simp, fun a ha b hb => by
      simp only [List.map_cons, List.map_nil, List.mem_singleton] at hb
      rintro rfl
      exact out (hb ▸ ha)⟩
  · by_cases e : c = w.booking
    · subst e
      simp [after]
    · rw [stay.others c e, h.waits]
      simp [e]

end Sys2Proof.Machine

/-! A lane, its check record and its reservations (spec/02 R19, R22, R25; spec/06 R101): the five ways they
stand together, and what they add to the account (spec/04 R55 to R57). -/

namespace Sys2Proof.Machine

/-! The five ways -/

/-- Lane, check record and reservations agree. -/
inductive Berth (zones : Table Zone) (l : Lane) : List Reservation → Prop
  | idle (stowed : ∀ e ∈ l.entries, e.state = .stowed) (check : l.check = none) : Berth zones l []
  | loading (base : List Entry) (e : Entry) (r : Reservation) (entries : l.entries = base ++ [e])
    (stowed : ∀ x ∈ base, x.state = .stowed) (state : e.state = .reserved) (check : l.check = none)
    (kind : r.kind = .load) (mass : r.mass = e.unit.mass) (claim : r.claim = e.claim zones l 1) :
    Berth zones l [r]
  | leaving (base : List Entry) (e : Entry) (r : Reservation) (entries : l.entries = base ++ [e])
    (stowed : ∀ x ∈ base, x.state = .stowed) (state : e.state = .leaving) (check : l.check = none)
    (kind : r.kind = .discharge) (mass : r.mass = e.unit.mass) (claim : r.claim = e.claim zones l (-1)) :
    Berth zones l [r]
  | loadCheck (c : CheckRecord) (u : UnitBody) (stowed : ∀ e ∈ l.entries, e.state = .stowed)
    (check : l.check = some c) (content : c.content = .load u) (delta : c.delta = l.deltaOf u.mass)
    (zone : c.zone = l.zoneOf zones c.offset u.length) : Berth zones l []
  | dischargeCheck (base : List Entry) (e : Entry) (c : CheckRecord) (entries : l.entries = base ++ [e])
    (stowed : ∀ x ∈ base, x.state = .stowed) (state : e.state = .stowed) (check : l.check = some c)
    (content : c.content = .discharge) (claim : c.claim = e.claim zones l (-1)) : Berth zones l []

/-- The reservations on a lane. -/
def State.reservationsOn (s : State) (n : Nat) : List Reservation :=
  s.movements.filter fun r => decide (r.lane = n)

theorem Lane.getLast_cases (l : Lane) :
    l.entries = [] ∧ l.entries.getLast? = none ∨
      ∃ base e, l.entries = base ++ [e] ∧ l.entries.getLast? = some e ∧ l.entries.dropLast = base := by
  rcases List.eq_nil_or_concat l.entries with h | ⟨base, e, h⟩
  · exact .inl ⟨h, by simp [h]⟩
  · rw [List.concat_eq_append] at h
    exact .inr ⟨base, e, h, by simp [h], by simp [h]⟩

/-- What `Lane.shapeOk` says of a lane without check record. -/
theorem Lane.shapeOk_none {zones : Table Zone} {l : Lane} (h : l.check = none) :
    l.shapeOk zones = true ↔ ∀ e ∈ l.entries.dropLast, e.state = .stowed := by
  simp [Lane.shapeOk, h]

/-- What it says of a lane with a LOAD check record. -/
theorem Lane.shapeOk_load {zones : Table Zone} {l : Lane} {c : CheckRecord} {u : UnitBody}
    (h : l.check = some c) (k : c.content = .load u) : l.shapeOk zones = true ↔
    (∀ e ∈ l.entries, e.state = .stowed) ∧ c.delta = l.deltaOf u.mass ∧
      c.zone = l.zoneOf zones c.offset u.length := by
  simp only [Lane.shapeOk, h, k, Bool.and_eq_true, List.all_eq_true, decide_eq_true_eq, Bool.not_eq_true',
    Lane.inService_false]
  exact ⟨And.right, fun h => ⟨fun e mem => h.1 e (List.mem_of_mem_dropLast mem), h⟩⟩

/-- What it says of a lane with a DISCHARGE check record. -/
theorem Lane.shapeOk_discharge {zones : Table Zone} {l : Lane} {c : CheckRecord}
    (h : l.check = some c) (k : c.content = .discharge) : l.shapeOk zones = true ↔
    (∀ e ∈ l.entries, e.state = .stowed) ∧
      ∃ e, l.entries.getLast? = some e ∧ c.claim = e.claim zones l (-1) := by
  simp only [Lane.shapeOk, h, k, Bool.and_eq_true, List.all_eq_true, decide_eq_true_eq, Bool.not_eq_true',
    Lane.inService_false]
  cases l.entries.getLast? with
  | none => simp
  | some e =>
    simp only [decide_eq_true_eq, Option.some.injEq, exists_eq_left']
    exact ⟨And.right, fun h => ⟨fun e mem => h.1 e (List.mem_of_mem_dropLast mem), h⟩⟩

/-- What `State.laneMoves` says of a lane without reservation. -/
theorem State.laneMoves_nil {s : State} {n : Nat} {l : Lane} (h : s.reservationsOn n = []) :
    s.laneMoves n l = true ↔ ∀ e, l.entries.getLast? = some e → e.state = .stowed := by
  unfold State.laneMoves
  rw [show (s.movements.filter fun r => decide (r.lane = n)) = [] from h]
  cases l.entries.getLast? <;> simp

/-- What it says of a lane with one. -/
theorem State.laneMoves_one {s : State} {n : Nat} {l : Lane} {r : Reservation} (h : s.reservationsOn n = [r]) :
    s.laneMoves n l = true ↔ ∃ e, l.entries.getLast? = some e ∧ r.mass = e.unit.mass ∧
      (e.state = .reserved ∧ r.kind = .load ∧ r.claim = e.claim s.zones l 1 ∨
        e.state = .leaving ∧ r.kind = .discharge ∧ r.claim = e.claim s.zones l (-1)) := by
  unfold State.laneMoves
  rw [show (s.movements.filter fun r => decide (r.lane = n)) = [r] from h]
  cases l.entries.getLast? with
  | none => simp
  | some e => cases state : e.state <;> simp [state]

/-- No lane has two. -/
theorem State.laneMoves_two {s : State} {n : Nat} {l : Lane} (h : s.laneMoves n l = true) :
    s.reservationsOn n = [] ∨ ∃ r, s.reservationsOn n = [r] := by
  match e : s.reservationsOn n with
  | [] => exact .inl rfl
  | [r] => exact .inr ⟨r, rfl⟩
  | a :: b :: rest =>
    unfold State.laneMoves at h
    rw [show (s.movements.filter fun r => decide (r.lane = n)) = a :: b :: rest from e] at h
    cases l.entries.getLast? <;> simp at h

/-- A check record stands beside STOWED entries only. -/
theorem Lane.shapeOk_stowed {zones : Table Zone} {l : Lane} {c : CheckRecord} (h : l.shapeOk zones = true)
    (check : l.check = some c) : ∀ e ∈ l.entries, e.state = .stowed := by
  cases content : c.content with
  | load u => exact ((Lane.shapeOk_load check content).mp h).1
  | discharge => exact ((Lane.shapeOk_discharge check content).mp h).1

theorem stowed_of_last {l : Lane} (base : ∀ e ∈ l.entries.dropLast, e.state = .stowed)
    (last : ∀ e, l.entries.getLast? = some e → e.state = .stowed) : ∀ e ∈ l.entries, e.state = .stowed := by
  obtain ⟨nil, -⟩ | ⟨list, e, entries, getLast, dropLast⟩ := l.getLast_cases
  · simp [nil]
  · rw [dropLast] at base
    rw [entries]
    intro x mem
    rcases List.mem_append.mp mem with mem | mem
    · exact base x mem
    · obtain rfl := List.mem_singleton.mp mem
      exact last x getLast

theorem Berth.iff {s : State} {n : Nat} {l : Lane} :
    Berth s.zones l (s.reservationsOn n) ↔ l.shapeOk s.zones = true ∧ s.laneMoves n l = true := by
  constructor
  · intro h
    generalize ms : s.reservationsOn n = rs at h
    cases h with
    | idle stowed check =>
      exact ⟨(Lane.shapeOk_none check).mpr fun e mem => stowed e (List.mem_of_mem_dropLast mem),
        (State.laneMoves_nil ms).mpr fun e last => stowed e (List.mem_of_getLast? last)⟩
    | loading base e r entries stowed state check kind mass claim =>
      exact ⟨(Lane.shapeOk_none check).mpr (by simpa [entries] using stowed),
        (State.laneMoves_one ms).mpr ⟨e, by simp [entries], mass, .inl ⟨state, kind, claim⟩⟩⟩
    | leaving base e r entries stowed state check kind mass claim =>
      exact ⟨(Lane.shapeOk_none check).mpr (by simpa [entries] using stowed),
        (State.laneMoves_one ms).mpr ⟨e, by simp [entries], mass, .inr ⟨state, kind, claim⟩⟩⟩
    | loadCheck c u stowed check content delta zone =>
      exact ⟨(Lane.shapeOk_load check content).mpr ⟨stowed, delta, zone⟩,
        (State.laneMoves_nil ms).mpr fun e last => stowed e (List.mem_of_getLast? last)⟩
    | dischargeCheck base e c entries stowed state check content claim =>
      have all : ∀ x ∈ l.entries, x.state = .stowed := by
        simpa [entries, or_imp, forall_and] using ⟨stowed, state⟩
      exact ⟨(Lane.shapeOk_discharge check content).mpr ⟨all, e, by simp [entries], claim⟩,
        (State.laneMoves_nil ms).mpr fun e last => all e (List.mem_of_getLast? last)⟩
  · rintro ⟨shape, moves⟩
    obtain ms | ⟨r, ms⟩ := State.laneMoves_two moves
    · rw [ms]
      have last := (State.laneMoves_nil ms).mp moves
      cases check : l.check with
      | none => exact .idle (stowed_of_last ((Lane.shapeOk_none check).mp shape) last) check
      | some c =>
        cases content : c.content with
        | load u =>
          obtain ⟨stowed, delta, zone⟩ := (Lane.shapeOk_load check content).mp shape
          exact .loadCheck c u stowed check content delta zone
        | discharge =>
          obtain ⟨stowed, e, last, claim⟩ := (Lane.shapeOk_discharge check content).mp shape
          obtain ⟨base, entries⟩ := List.getLast?_eq_some_iff.mp last
          exact .dischargeCheck base e c entries (fun x mem => stowed x (by simp [entries, mem]))
            (stowed e (by simp [entries])) check content claim
    · rw [ms]
      obtain ⟨e, last, mass, how⟩ := (State.laneMoves_one ms).mp moves
      obtain ⟨base, entries⟩ := List.getLast?_eq_some_iff.mp last
      have check : l.check = none := by
        cases check : l.check with
        | none => rfl
        | some c =>
          have := Lane.shapeOk_stowed shape check e (List.mem_of_getLast? last)
          rcases how with ⟨state, -⟩ | ⟨state, -⟩ <;> simp_all
      have stowed : ∀ x ∈ base, x.state = .stowed := by
        simpa [entries] using (Lane.shapeOk_none check).mp shape
      obtain ⟨state, kind, claim⟩ | ⟨state, kind, claim⟩ := how
      · exact .loading base e r entries stowed state check kind mass claim
      · exact .leaving base e r entries stowed state check kind mass claim

/-! What a lane adds to the account -/

/-- The moment of the entries aboard (R55). -/
def Lane.momentAboard (l : Lane) : Int := (l.aboard.map fun e => l.deltaOf e.unit.mass).sum

/-- The mass of the entries aboard (R23). -/
def Lane.massAboard (l : Lane) : Nat := (l.aboard.map fun e => e.unit.mass).sum

/-- The pending deltas of a lane with its reservations (R56). -/
def Lane.dues (l : Lane) (rs : List Reservation) : List Int := rs.map (·.delta) ++ l.check.toList.map (·.delta)

/-- The pending load mass of reservations in a zone (R56). -/
def loadMassIn (z : Nat) (rs : List Reservation) : Nat :=
  ((rs.filter fun r => decide (r.kind = .load) && decide (r.zone = some z)).map (·.mass)).sum

/-- The pool entries a lane takes (R19). -/
def Lane.places (l : Lane) : Nat := l.entries.length + l.loadCheck?.toList.length

/-- The reservations of a ramp (R79). -/
def countOf (k : Nat) (rs : List Reservation) : Nat := (rs.filter fun r => decide (r.ramp = k)).length

theorem loadMassIn_append (z : Nat) (a b : List Reservation) :
    loadMassIn z (a ++ b) = loadMassIn z a + loadMassIn z b := by
  simp [loadMassIn]

theorem countOf_append (k : Nat) (a b : List Reservation) : countOf k (a ++ b) = countOf k a + countOf k b := by
  simp [countOf]

/-- The account, the zones, the pool and the ramps hold what lanes and reservations give (R19, R55, R56,
R79). -/
structure State.Ledger (s : State) : Prop where
  tc : s.account.tc = (s.lanes.map fun p => p.2.momentAboard).sum
  plus : s.account.pPlus = (s.pendingDeltas.map fun d => max d 0).sum
  minus : s.account.pMinus = (s.pendingDeltas.map fun d => min d 0).sum
  confirmed : ∀ z ∈ s.zones, z.2.confirmed = (s.lanes.map fun p => p.2.aboardIn s.zones z.1).sum
  pending : ∀ z ∈ s.zones, z.2.pendingLoad = s.pendingMass z.1
  pool : s.poolInUse = (s.lanes.map fun p => p.2.places).sum
  ramps : ∀ r ∈ s.ramps, r.2.count = countOf r.1 s.movements

/-- Every lane stands with its reservations in one of the five ways, undisturbed, packed and with its mass
(R19, R20, R23, R25, R26, R101). -/
structure State.Berthed (s : State) : Prop where
  berth : ∀ p ∈ s.lanes, Berth s.zones p.2 (s.reservationsOn p.1)
  calm : ∀ p ∈ s.lanes, p.2.undisturbed s.sections = true
  packed : ∀ p ∈ s.lanes, p.2.packed s.gap = true
  mass : ∀ p ∈ s.lanes, p.2.mass = p.2.massAboard
  known : ∀ r ∈ s.movements, (s.lanes.get r.lane).isSome = true
  bare : s.isSealed = true ∨ ∀ p ∈ s.lanes, p.2.occupied = false

/-- Everything the invariants of spec/02 to spec/06 say of the state, the image apart. -/
structure State.Planned (s : State) : Prop where
  booked : Booked s.lanes s.register
  waits : Waits s.waiting s.register
  berthed : s.Berthed
  ledger : s.Ledger

/-- What they say of the image. -/
structure Image.Planned (i : Image) : Prop where
  booked : Booked i.lanes i.register
  shape : ∀ p ∈ i.lanes, p.2.shapeOk i.zones = true
  calm : ∀ p ∈ i.lanes, p.2.undisturbed i.sections = true
  packed : ∀ p ∈ i.lanes, p.2.packed i.gap = true
  counts : ∀ r ∈ i.ramps, r.2.count = 0
  bare : i.isSealed = true ∨ ∀ p ∈ i.lanes, p.2.occupied = false

/-- `State.planOk`, law by law. -/
theorem State.planOk_iff (s : State) : s.planOk = true ↔
    (∀ p ∈ s.lanes, (p.2.shapeOk s.zones = true ∧ s.laneMoves p.1 p.2 = true) ∧
      p.2.undisturbed s.sections = true) ∧
    (∀ r ∈ s.movements, (s.lanes.get r.lane).isSome = true) ∧
    (s.isSealed = true ∨ ∀ p ∈ s.lanes, p.2.occupied = false) ∧
    (∀ p ∈ s.lanes, p.2.mass = p.2.massAboard) ∧ s.Ledger ∧
    (∀ p ∈ s.store.image.lanes, p.2.shapeOk s.store.image.zones = true ∧
      p.2.undisturbed s.store.image.sections = true) ∧
    (∀ r ∈ s.store.image.ramps, r.2.count = 0) ∧
    (s.store.image.isSealed = true ∨ ∀ p ∈ s.store.image.lanes, p.2.occupied = false) := by
  simp only [State.planOk, State.momentsOk, State.massesOk, Bool.and_eq_true, Bool.or_eq_true,
    List.all_eq_true, decide_eq_true_eq, Bool.not_eq_true']
  constructor
  · rintro ⟨⟨⟨⟨⟨⟨⟨lanes, known⟩, bare⟩, ⟨⟨tc, plus⟩, minus⟩⟩, ⟨⟨⟨mass, zones⟩, pool⟩, ramps⟩⟩, image⟩, counts⟩,
      bareImage⟩
    exact ⟨lanes, known, bare, mass, ⟨tc, plus, minus, fun z hz => (zones z hz).1, fun z hz => (zones z hz).2,
      pool, ramps⟩, image, counts, bareImage⟩
  · rintro ⟨lanes, known, bare, mass, ⟨tc, plus, minus, confirmed, pending, pool, ramps⟩, image, counts, bareImage⟩
    exact ⟨⟨⟨⟨⟨⟨⟨lanes, known⟩, bare⟩, ⟨⟨tc, plus⟩, minus⟩⟩,
      ⟨⟨⟨mass, fun z hz => ⟨confirmed z hz, pending z hz⟩⟩, pool⟩, ramps⟩⟩, image⟩, counts⟩, bareImage⟩

/-- The four invariants together are the laws of the state and of the image. -/
theorem State.planned_iff (s : State) : s.Planned ∧ s.store.image.Planned ↔
    s.waitingOk = true ∧ s.planOk = true ∧ s.listsOk = true ∧ s.bookingsOk = true := by
  rw [State.waitingOk_iff, State.planOk_iff]
  simp only [State.listsOk, State.bookingsOk, Bool.and_eq_true, List.all_eq_true]
  constructor
  · rintro ⟨⟨booked, waits, berthed, ledger⟩, ⟨imageBooked, shape, calm, packed, counts, bare⟩⟩
    refine ⟨⟨booked.records, imageBooked.records, waits⟩, ⟨fun p hp => ⟨?_, berthed.calm p hp⟩, berthed.known,
      berthed.bare, berthed.mass, ledger, fun p hp => ⟨shape p hp, calm p hp⟩, counts, bare⟩,
      ⟨berthed.packed, packed⟩, (booked_iff.mp booked).2, (booked_iff.mp imageBooked).2⟩
    exact Berth.iff.mp (berthed.berth p hp)
  · rintro ⟨⟨records, imageRecords, waits⟩, ⟨lanes, known, bare, mass, ledger, image, counts, bareImage⟩,
      ⟨packed, imagePacked⟩, bookings, imageBookings⟩
    exact ⟨⟨booked_iff.mpr ⟨records, bookings⟩, waits, ⟨fun p hp => Berth.iff.mpr (lanes p hp).1,
      fun p hp => (lanes p hp).2, packed, mass, known, bare⟩, ledger⟩,
      ⟨booked_iff.mpr ⟨imageRecords, imageBookings⟩, fun p hp => (image p hp).1, fun p hp => (image p hp).2,
      imagePacked, counts, bareImage⟩⟩

/-! One lane reworked -/

/-- A canonical table, cut at a number. -/
theorem Table.cut {α : Type} {t : Table α} {last n : Nat} {l : α} (wf : t.wf last = true)
    (get : t.get n = some l) : ∃ a b, t = a ++ (n, l) :: b ∧ (∀ p ∈ a ++ b, p.1 ≠ n) ∧
      ∀ f, t.modify n f = a ++ (n, f l) :: b := by
  obtain ⟨a, b, cut⟩ := List.append_of_mem (Table.mem_of_get get)
  have nodup := Table.numbers_nodup wf
  have others : ∀ p ∈ a ++ b, p.1 ≠ n := by
    intro p hp e
    rw [cut] at nodup
    have perm : ((a ++ (n, l) :: b).map (·.1)).Perm (n :: (a ++ b).map (·.1)) := by
      simp
    exact (List.nodup_cons.mp (perm.nodup_iff.mp nodup)).1 (e ▸ List.mem_map_of_mem hp)
  refine ⟨a, b, cut, others, fun f => ?_⟩
  have still (c : Table α) (h : ∀ p ∈ c, p.1 ≠ n) :
      (c.map fun p => if p.1 = n then (p.1, f p.2) else p) = c := by
    rw [List.map_congr_left fun p hp => if_neg (h p hp)]
    simp
  unfold Table.modify
  rw [cut, List.map_append, List.map_cons, still a fun p hp => others p (by simp [hp]),
    still b fun p hp => others p (by simp [hp]), if_pos rfl]

/-- A zone's stretch, without what it holds. -/
def Zone.stretch (z : Zone) : Zone := { z with confirmed := 0, pendingLoad := 0 }

/-- Zones under the same numbers with the same stretches. -/
def SameStretches (a b : Table Zone) : Prop := b.mapAll Zone.stretch = a.mapAll Zone.stretch

theorem SameStretches.zoneAt_eq {a b : Table Zone} (h : SameStretches a b) (deck : Nat) (c : Int) :
    zoneAt b deck c = zoneAt a deck c := by
  have via (t : Table Zone) : zoneAt t deck c = zoneAt (t.mapAll Zone.stretch) deck c := by
    simp only [zoneAt, Table.mapAll, List.find?_map, Option.map_map]
    rfl
  rw [via b, via a, h]

theorem SameStretches.zoneOf {a b : Table Zone} (h : SameStretches a b) (l : Lane) (offset len : Nat) :
    l.zoneOf b offset len = l.zoneOf a offset len := h.zoneAt_eq _ _

theorem SameStretches.aboardIn {a b : Table Zone} (h : SameStretches a b) (z : Nat) (l : Lane) :
    l.aboardIn b z = l.aboardIn a z := by
  unfold Lane.aboardIn
  simp only [h.zoneOf]

theorem SameStretches.berth {a b : Table Zone} (h : SameStretches a b) {l : Lane} {rs : List Reservation}
    (k : Berth a l rs) : Berth b l rs := by
  have claim (e : Entry) (sign : Int) : e.claim b l sign = e.claim a l sign := by
    simp only [Entry.claim, h.zoneOf]
  cases k with
  | idle stowed check => exact .idle stowed check
  | loading base e r entries stowed state check kind mass same =>
    exact .loading base e r entries stowed state check kind mass (same.trans (claim e 1).symm)
  | leaving base e r entries stowed state check kind mass same =>
    exact .leaving base e r entries stowed state check kind mass (same.trans (claim e (-1)).symm)
  | loadCheck c u stowed check content delta zone =>
    exact .loadCheck c u stowed check content delta (zone.trans (h.zoneOf l _ _).symm)
  | dischargeCheck base e c entries stowed state check content same =>
    exact .dischargeCheck base e c entries stowed state check content (same.trans (claim e (-1)).symm)

theorem Table.get_isSome_iff {α : Type} (t : Table α) (k : Nat) :
    (t.get k).isSome = true ↔ k ∈ t.map (·.1) := by
  induction t with
  | nil => simp
  | cons p t ih =>
    rw [Table.get_cons]
    split
    · rename_i e
      simp [e]
    · rename_i ne
      simp [ih, Ne.symm ne]

/-- A record under the same number of a table with the same numbers. -/
theorem Table.get_of_numbers {α β : Type} {a : Table α} {b : Table β} (h : b.map (·.1) = a.map (·.1))
    {k : Nat} {v : β} (get : b.get k = some v) : ∃ w, a.get k = some w := by
  refine Option.isSome_iff_exists.mp ((Table.get_isSome_iff a k).mpr ?_)
  rw [← h]
  exact (Table.get_isSome_iff b k).mp (by simp [get])

theorem SameStretches.onZone (zones : Table Zone) (z : Option Nat) (f : Zone → Zone)
    (h : ∀ q, (f q).stretch = q.stretch) : SameStretches zones (onZone zones z f) := by
  unfold SameStretches Machine.onZone
  cases z with
  | none => rfl
  | some n => rw [Table.mapAll_modify _ _ _ _ h]

theorem Table.get_onZone (zones : Table Zone) (z : Option Nat) (f : Zone → Zone) (k : Nat) :
    (onZone zones z f).get k = if z = some k then (zones.get k).map f else zones.get k := by
  cases z with
  | none => simp [onZone]
  | some n =>
    simp only [onZone, Table.get_modify, Option.some.injEq]
    by_cases h : k = n
    · simp [h]
    · simp [h, Ne.symm h]

/-! Zones, where a mass passes into the confirmed or out of the pending load mass (R57) -/

section
variable {zones : Table Zone} {z : Option Nat} {m : Nat} {aboard aboard' due due' : Nat → Nat}

/-- What the masses of two lanes and the changed zones have to do with each other. -/
def ZoneBalance (zones zones' : Table Zone) (aboard aboard' due due' : Nat → Nat) : Prop :=
  ∀ k q q', zones.get k = some q → zones'.get k = some q' →
    q'.confirmed + aboard k = q.confirmed + aboard' k ∧ q'.pendingLoad + due k = q.pendingLoad + due' k

theorem ZoneBalance.same (ha : ∀ k, aboard' k = aboard k) (hd : ∀ k, due k = due' k) :
    ZoneBalance zones zones aboard aboard' due due' := by
  intro k q q' get get'
  cases get.symm.trans get'
  rw [ha, hd]
  exact ⟨rfl, rfl⟩

theorem ZoneBalance.addPending (ha : ∀ k, aboard' k = aboard k)
    (hd : ∀ k, due' k = due k + if z = some k then m else 0) :
    ZoneBalance zones (onZone zones z (Zone.addPending m)) aboard aboard' due due' := by
  intro k q q' get get'
  rw [Table.get_onZone, get] at get'
  rw [ha, hd]
  by_cases h : z = some k
  · simp only [if_pos h, Option.map_some, Option.some.injEq] at get' ⊢
    subst get'
    dsimp only [Zone.addPending]
    omega
  · simp only [if_neg h, Option.some.injEq] at get' ⊢
    subst get'
    omega

theorem ZoneBalance.dropPending (bound : ∀ k q, zones.get k = some q → due k ≤ q.pendingLoad)
    (ha : ∀ k, aboard' k = aboard k) (hd : ∀ k, due k = due' k + if z = some k then m else 0) :
    ZoneBalance zones (onZone zones z (Zone.dropPending m)) aboard aboard' due due' := by
  intro k q q' get get'
  have := bound k q get
  rw [Table.get_onZone, get] at get'
  rw [hd] at this ⊢
  rw [ha]
  by_cases h : z = some k
  · simp only [if_pos h, Option.map_some, Option.some.injEq] at get' this ⊢
    subst get'
    dsimp only [Zone.dropPending]
    omega
  · simp only [if_neg h, Option.some.injEq] at get' this ⊢
    subst get'
    omega

theorem ZoneBalance.confirm (bound : ∀ k q, zones.get k = some q → due k ≤ q.pendingLoad)
    (ha : ∀ k, aboard' k = aboard k + if z = some k then m else 0)
    (hd : ∀ k, due k = due' k + if z = some k then m else 0) :
    ZoneBalance zones (onZone zones z (Zone.confirm m)) aboard aboard' due due' := by
  intro k q q' get get'
  have := bound k q get
  rw [Table.get_onZone, get] at get'
  rw [hd] at this ⊢
  rw [ha]
  by_cases h : z = some k
  · simp only [if_pos h, Option.map_some, Option.some.injEq] at get' this ⊢
    subst get'
    dsimp only [Zone.confirm]
    omega
  · simp only [if_neg h, Option.some.injEq] at get' this ⊢
    subst get'
    omega

theorem ZoneBalance.unload (bound : ∀ k q, zones.get k = some q → aboard k ≤ q.confirmed)
    (ha : ∀ k, aboard k = aboard' k + if z = some k then m else 0) (hd : ∀ k, due k = due' k) :
    ZoneBalance zones (onZone zones z (Zone.unload m)) aboard aboard' due due' := by
  intro k q q' get get'
  have := bound k q get
  rw [Table.get_onZone, get] at get'
  rw [ha] at this ⊢
  rw [hd]
  by_cases h : z = some k
  · simp only [if_pos h, Option.map_some, Option.some.injEq] at get' this ⊢
    subst get'
    dsimp only [Zone.unload]
    omega
  · simp only [if_neg h, Option.some.injEq] at get' this ⊢
    subst get'
    omega

end

/-! The account, where a delta comes, goes or passes into Tc (R57) -/

/-- What the moments and pending deltas of two lanes and the changed account have to do with each other. -/
structure AccountBalance (a a' : Account) (moment moment' : Int) (dues dues' : List Int) : Prop where
  tc : a'.tc + moment = a.tc + moment'
  plus : a'.pPlus + (dues.map fun d => max d 0).sum = a.pPlus + (dues'.map fun d => max d 0).sum
  minus : a'.pMinus + (dues.map fun d => min d 0).sum = a.pMinus + (dues'.map fun d => min d 0).sum

section
variable {a : Account} {moment moment' d : Int} {dues dues' : List Int}

theorem AccountBalance.same (hm : moment' = moment) (hd : dues' = dues) :
    AccountBalance a a moment moment' dues dues' := by
  subst hm hd
  exact ⟨rfl, rfl, rfl⟩

theorem AccountBalance.addDelta (hm : moment' = moment) (hd : dues = []) (hd' : dues' = [d]) :
    AccountBalance a (a.addDelta d) moment moment' dues dues' := by
  subst hm hd hd'
  constructor <;> simp [Account.addDelta]

theorem AccountBalance.dropDelta (hm : moment' = moment) (hd : dues = [d]) (hd' : dues' = []) :
    AccountBalance a (a.dropDelta d) moment moment' dues dues' := by
  subst hm hd hd'
  constructor <;> simp [Account.dropDelta]

theorem AccountBalance.confirmDelta (hm : moment' = moment + d) (hd : dues = [d]) (hd' : dues' = []) :
    AccountBalance a (a.confirmDelta d) moment moment' dues dues' := by
  subst hm hd hd'
  constructor <;> simp [Account.confirmDelta, Account.dropDelta]
  omega

end

/-- One lane and its reservations change, with what they add to the account. -/
structure Rework (s t : State) (n : Nat) (l l' : Lane) (old new : List Reservation) : Prop where
  lane : s.lanes.get n = some l
  lanes : t.lanes = s.lanes.modify n fun _ => l'
  movements : ∃ x y, s.movements = x ++ old ++ y ∧ t.movements = x ++ new ++ y
  here : ∀ r ∈ old ++ new, r.lane = n
  isSealed : t.isSealed = true
  sections : t.sections = s.sections
  gap : t.gap = s.gap
  account : AccountBalance s.account t.account l.momentAboard l'.momentAboard (l.dues old) (l'.dues new)
  stretches : SameStretches s.zones t.zones
  zones : ZoneBalance s.zones t.zones (l.aboardIn s.zones) (l'.aboardIn s.zones)
    (fun k => loadMassIn k old + l.pendingIn k) fun k => loadMassIn k new + l'.pendingIn k
  pool : t.poolInUse + l.places = s.poolInUse + l'.places
  rampNumbers : t.ramps.map (·.1) = s.ramps.map (·.1)
  ramps : ∀ k r r', s.ramps.get k = some r → t.ramps.get k = some r' →
    r'.count + countOf k old = r.count + countOf k new

theorem Rework.ledger {s t : State} {n : Nat} {l l' : Lane} {old new : List Reservation}
    (h : Rework s t n l l' old new) (wf : s.tablesOk = true) (ledger : s.Ledger) : t.Ledger := by
  obtain ⟨lanesWf, zonesWf, rampsWf, -, -⟩ := (State.tablesOk_iff s).mp wf
  obtain ⟨a, b, cut, others, modified⟩ := Table.cut lanesWf h.lane
  obtain ⟨x, y, before, after⟩ := h.movements
  have lanes := h.lanes.trans (modified _)
  have zoneNumbers := Table.numbers_of_mapAll h.stretches
  have zonesWf' : t.zones.wf Config.zoneCount = true := by rwa [Table.wf_congr _ _ _ zoneNumbers]
  have rampsWf' : t.ramps.wf Config.rampCount = true := by rwa [Table.wf_congr _ _ _ h.rampNumbers]
  obtain ⟨tc, plus, minus, confirmed, pending, pool, ramps⟩ := ledger
  have dues (g : Int → Int) (p q : Int) (balance : q + ((l.dues old).map g).sum = p + ((l'.dues new).map g).sum)
      (holds : p = (s.pendingDeltas.map g).sum) : q = (t.pendingDeltas.map g).sum := by
    simp only [State.pendingDeltas, before, after, cut, lanes, List.filterMap_eq_flatMap_toList, Lane.dues,
      List.flatMap_append, List.flatMap_cons, List.map_append, List.sum_append, Option.toList_map] at *
    omega
  refine ⟨?_, dues _ _ _ h.account.plus plus, dues _ _ _ h.account.minus minus, fun z hz => ?_, fun z hz => ?_, ?_,
    fun r hr => ?_⟩
  · have := h.account.tc
    rw [cut] at tc
    rw [lanes]
    simp only [List.map_append, List.map_cons, List.sum_append, List.sum_cons] at tc ⊢
    omega
  · have get' := (Table.mem_iff_get zonesWf' z.1 z.2).mp hz
    obtain ⟨z0, get⟩ := Table.get_of_numbers zoneNumbers get'
    have balance := (h.zones _ _ _ get get').1
    have held := confirmed _ (Table.mem_of_get get)
    rw [cut] at held
    rw [lanes]
    simp only [List.map_append, List.map_cons, List.sum_append, List.sum_cons, h.stretches.aboardIn] at held ⊢
    dsimp only at balance
    omega
  · have get' := (Table.mem_iff_get zonesWf' z.1 z.2).mp hz
    obtain ⟨z0, get⟩ := Table.get_of_numbers zoneNumbers get'
    have balance := (h.zones _ _ _ get get').2
    have held := pending _ (Table.mem_of_get get)
    change z0.pendingLoad = loadMassIn z.1 s.movements + _ at held
    change z.2.pendingLoad = loadMassIn z.1 t.movements + _
    rw [cut, before] at held
    rw [lanes, after]
    simp only [loadMassIn_append, List.map_append, List.map_cons, List.sum_append, List.sum_cons] at held ⊢
    dsimp only at balance
    omega
  · have := h.pool
    rw [cut] at pool
    rw [lanes]
    simp only [List.map_append, List.map_cons, List.sum_append, List.sum_cons] at pool ⊢
    omega
  · have get' := (Table.mem_iff_get rampsWf' r.1 r.2).mp hr
    obtain ⟨r0, get⟩ := Table.get_of_numbers h.rampNumbers get'
    have balance := h.ramps _ _ _ get get'
    have held := ramps _ (Table.mem_of_get get)
    rw [before] at held
    rw [after]
    simp only [countOf_append] at held ⊢
    omega

theorem Rework.berthed {s t : State} {n : Nat} {l l' : Lane} {old new : List Reservation}
    (h : Rework s t n l l' old new) (wf : s.tablesOk = true) (berthed : s.Berthed)
    (only : s.reservationsOn n = old) (berth : Berth s.zones l' new) (calm : l'.undisturbed s.sections = true)
    (packed : l'.packed s.gap = true) (mass : l'.mass = l'.massAboard) : t.Berthed := by
  obtain ⟨lanesWf, -⟩ := (State.tablesOk_iff s).mp wf
  obtain ⟨a, b, cut, others, modified⟩ := Table.cut lanesWf h.lane
  obtain ⟨x, y, before, after⟩ := h.movements
  have lanes := h.lanes.trans (modified _)
  have numbers : t.lanes.map (·.1) = s.lanes.map (·.1) := by simp [h.lanes]
  have oldHere : old.filter (fun r => decide (r.lane = n)) = old :=
    List.filter_eq_self.mpr fun r hr => by simp [h.here r (by simp [hr])]
  have newHere : new.filter (fun r => decide (r.lane = n)) = new :=
    List.filter_eq_self.mpr fun r hr => by simp [h.here r (by simp [hr])]
  have elsewhere (m : Nat) (ne : m ≠ n) : t.reservationsOn m = s.reservationsOn m := by
    have none_ (rs : List Reservation) (hr : ∀ r ∈ rs, r.lane = n) :
        rs.filter (fun r => decide (r.lane = m)) = [] :=
      List.filter_eq_nil_iff.mpr fun r mem => by simp [hr r mem, Ne.symm ne]
    simp only [State.reservationsOn, before, after, List.filter_append,
      none_ old fun r hr => h.here r (by simp [hr]), none_ new fun r hr => h.here r (by simp [hr])]
  have here : t.reservationsOn n = new := by
    have rest : x.filter (fun r => decide (r.lane = n)) = [] ∧ y.filter (fun r => decide (r.lane = n)) = [] := by
      have := congrArg List.length only
      simp only [State.reservationsOn, before, List.filter_append, oldHere, List.length_append] at this
      exact ⟨List.eq_nil_of_length_eq_zero (by omega), List.eq_nil_of_length_eq_zero (by omega)⟩
    simp only [State.reservationsOn, after, List.filter_append, rest, newHere, List.nil_append, List.append_nil]
  have old_ {p : Nat × Lane} (hp : p ∈ a ++ b) : p ∈ s.lanes := by
    rw [cut]
    simp only [List.mem_append, List.mem_cons] at hp ⊢
    tauto
  have each {P : Nat × Lane → Prop} (one : P (n, l')) (rest : ∀ p ∈ s.lanes, p.1 ≠ n → P p) :
      ∀ p ∈ t.lanes, P p := by
    intro p hp
    rw [lanes, List.mem_append, List.mem_cons] at hp
    rcases hp with hp | rfl | hp
    · exact rest p (old_ (by simp [hp])) (others p (by simp [hp]))
    · exact one
    · exact rest p (old_ (by simp [hp])) (others p (by simp [hp]))
  refine ⟨each (h.stretches.berth (here ▸ berth)) fun p hp ne => ?_,
    each (h.sections ▸ calm) fun p hp _ => h.sections ▸ berthed.calm p hp,
    each (h.gap ▸ packed) fun p hp _ => h.gap ▸ berthed.packed p hp, each mass fun p hp _ => berthed.mass p hp,
    fun r hr => ?_, .inl h.isSealed⟩
  · rw [elsewhere _ ne]
    exact h.stretches.berth (berthed.berth p hp)
  · rw [Table.get_isSome_iff, numbers, ← Table.get_isSome_iff]
    rw [after] at hr
    simp only [List.mem_append] at hr
    rcases hr with (hr | hr) | hr
    · exact berthed.known r (by simp [before, hr])
    · rw [h.here r (by simp [hr]), h.lane]
      rfl
    · exact berthed.known r (by simp [before, hr])

end Sys2Proof.Machine

/-! What each operation of Table 2-2 does to a lane, its reservations and the account (spec/02 R22, spec/04
R57). -/

namespace Sys2Proof.Machine

/-! Entry lists, entry by entry -/

/-- The moment of the entries aboard. -/
def momentOf (p : LaneProfile) (es : List Entry) : Int :=
  ((es.filter fun e => decide (e.state ≠ .reserved)).map fun e => (e.unit.mass : Int) * p.arm).sum

/-- The mass of the entries aboard. -/
def massOf (es : List Entry) : Nat := ((es.filter fun e => decide (e.state ≠ .reserved)).map fun e => e.unit.mass).sum

/-- The mass of the entries aboard in a zone. -/
def massAt (zones : Table Zone) (p : LaneProfile) (z : Nat) (es : List Entry) : Nat :=
  (((es.filter fun e => decide (e.state ≠ .reserved)).filter fun e =>
    decide (zoneAt zones p.deck (p.centre e.offset e.unit.length) = some z)).map fun e => e.unit.mass).sum

theorem Lane.momentAboard_eq (l : Lane) : l.momentAboard = momentOf l.profile l.entries := rfl

theorem Lane.massAboard_eq (l : Lane) : l.massAboard = massOf l.entries := rfl

theorem Lane.aboardIn_eq (zones : Table Zone) (z : Nat) (l : Lane) :
    l.aboardIn zones z = massAt zones l.profile z l.entries := rfl

theorem momentOf_concat (p : LaneProfile) (es : List Entry) (e : Entry) : momentOf p (es ++ [e]) =
    momentOf p es + if e.state = .reserved then 0 else (e.unit.mass : Int) * p.arm := by
  unfold momentOf
  by_cases h : e.state = .reserved <;> simp [h]

theorem massOf_concat (es : List Entry) (e : Entry) :
    massOf (es ++ [e]) = massOf es + if e.state = .reserved then 0 else e.unit.mass := by
  unfold massOf
  by_cases h : e.state = .reserved <;> simp [h]

theorem massAt_concat (zones : Table Zone) (p : LaneProfile) (z : Nat) (es : List Entry) (e : Entry) :
    massAt zones p z (es ++ [e]) = massAt zones p z es +
      if e.state ≠ .reserved ∧ zoneAt zones p.deck (p.centre e.offset e.unit.length) = some z then e.unit.mass
      else 0 := by
  unfold massAt
  by_cases h : e.state = .reserved <;>
    by_cases k : zoneAt zones p.deck (p.centre e.offset e.unit.length) = some z <;> simp [h, k]

theorem setLast_concat (es : List Entry) (e : Entry) (st : EntryState) :
    setLast (es ++ [e]) st = es ++ [{ e with state := st }] := by
  simp [setLast]

/-! Check records -/

theorem Lane.loadCheck_none {l : Lane} (h : l.check = none) : l.loadCheck? = none := by
  simp [Lane.loadCheck?, h]

theorem Lane.loadCheck_load {l : Lane} {c : CheckRecord} {u : UnitBody} (h : l.check = some c)
    (k : c.content = .load u) : l.loadCheck? = some (c, u) := by
  simp [Lane.loadCheck?, h, CheckRecord.unit?, k]

theorem Lane.loadCheck_discharge {l : Lane} {c : CheckRecord} (h : l.check = some c)
    (k : c.content = .discharge) : l.loadCheck? = none := by
  simp [Lane.loadCheck?, h, CheckRecord.unit?, k]

theorem Lane.pendingIn_of_none {l : Lane} (h : l.loadCheck? = none) (z : Nat) : l.pendingIn z = 0 := by
  simp [Lane.pendingIn, h]

theorem loadMassIn_load {r : Reservation} (h : r.kind = .load) (z : Nat) :
    loadMassIn z [r] = if r.zone = some z then r.mass else 0 := by
  by_cases k : r.zone = some z <;> simp [loadMassIn, h, k]

theorem loadMassIn_discharge {r : Reservation} (h : r.kind = .discharge) (z : Nat) : loadMassIn z [r] = 0 := by
  simp [loadMassIn, h]

theorem loadMassIn_nil (z : Nat) : loadMassIn z [] = 0 := rfl

theorem countOf_one (k : Nat) (r : Reservation) : countOf k [r] = if r.ramp = k then 1 else 0 := by
  by_cases h : r.ramp = k <;> simp [countOf, h]

theorem countOf_nil (k : Nat) : countOf k [] = 0 := rfl

/-! Tables -/

/-- In a canonical table a record changed under its number is replaced by what the change makes of it. -/
theorem Table.modify_const {α : Type} {t : Table α} {last n : Nat} {l : α} (wf : t.wf last = true)
    (get : t.get n = some l) (f : α → α) : t.modify n f = t.modify n fun _ => f l := by
  obtain ⟨a, b, -, -, modified⟩ := Table.cut wf get
  rw [modified f, modified fun _ => f l]

/-! Packed lists -/

theorem offsetsOk_concat (gap at_ : Nat) (es : List Entry) (e : Entry) :
    offsetsOk gap at_ (es ++ [e]) = true ↔ offsetsOk gap at_ es = true ∧ e.offset = at_ + endOf gap es := by
  induction es generalizing at_ with
  | nil => simp [offsetsOk, endOf]
  | cons x es ih =>
    simp only [List.cons_append, offsetsOk, Bool.and_eq_true, decide_eq_true_eq, ih, endOf, List.map_cons,
      List.sum_cons, and_assoc]
    refine and_congr_right fun _ => and_congr_right fun _ => ?_
    omega

/-- A packed list with its check record, law by law (R19, R20, R25). -/
theorem Lane.packed_iff {gap : Nat} {l : Lane} : l.packed gap = true ↔ offsetsOk gap 0 l.entries = true ∧
    l.places ≤ 24 ∧ (∀ e ∈ l.entries, e.offset + e.unit.length ≤ l.profile.length) ∧
    ∀ c, l.loadCheck? = some c → c.1.offset = endOf gap l.entries := by
  have places : l.units.length = l.places := by simp [Lane.units, Lane.places]
  unfold Lane.packed
  rw [places]
  simp only [Bool.and_eq_true, decide_eq_true_eq, List.all_eq_true, and_assoc]
  cases l.loadCheck? <;> simp [Config.laneEntries]

/-! A reservation ends -/

theorem State.movements_cut {s : State} {r : Reservation} (only : s.reservationsOn r.lane = [r]) :
    ∃ x y, s.movements = x ++ [r] ++ y ∧ (s.endReservation r).movements = x ++ [] ++ y := by
  have mem : r ∈ s.movements := List.mem_of_mem_filter (only ▸ List.mem_singleton_self r)
  obtain ⟨q, x, y, -, lane, cut, erased⟩ := List.exists_of_eraseP (p := fun q => decide (q.lane = r.lane)) mem
    (by simp)
  have same : q = r := by
    have : q ∈ s.reservationsOn r.lane := List.mem_filter.mpr ⟨by simp [cut], lane⟩
    simpa [only] using this
  subst same
  exact ⟨x, y, by simpa using cut, by simpa [State.endReservation] using erased⟩

theorem State.Berthed.at {s : State} (h : s.Berthed) (wf : s.tablesOk = true) {n : Nat} {l : Lane}
    (lane : s.lanes.get n = some l) : Berth s.zones l (s.reservationsOn n) :=
  h.berth (n, l) (((Table.mem_iff_get ((State.tablesOk_iff s).mp wf).1 n l).mpr lane))

/-- The lane of a LOAD reservation ends in its RESERVED entry. -/
structure Loading (s : State) (r : Reservation) (l : Lane) (base : List Entry) (e : Entry) : Prop where
  lane : s.lanes.get r.lane = some l
  only : s.reservationsOn r.lane = [r]
  entries : l.entries = base ++ [e]
  stowed : ∀ x ∈ base, x.state = .stowed
  state : e.state = .reserved
  check : l.check = none
  kind : r.kind = .load
  mass : r.mass = e.unit.mass
  claim : r.claim = e.claim s.zones l 1

/-- The lane of a DISCHARGE reservation ends in its LEAVING entry. -/
structure Leaving (s : State) (r : Reservation) (l : Lane) (base : List Entry) (e : Entry) : Prop where
  lane : s.lanes.get r.lane = some l
  only : s.reservationsOn r.lane = [r]
  entries : l.entries = base ++ [e]
  stowed : ∀ x ∈ base, x.state = .stowed
  state : e.state = .leaving
  check : l.check = none
  kind : r.kind = .discharge
  mass : r.mass = e.unit.mass
  claim : r.claim = e.claim s.zones l (-1)

theorem State.Berthed.loading {s : State} (h : s.Berthed) (wf : s.tablesOk = true) {r : Reservation}
    (hr : r ∈ s.movements) (kind : r.kind = .load) : ∃ l base e, Loading s r l base e := by
  obtain ⟨l, lane⟩ := Option.isSome_iff_exists.mp (h.known r hr)
  have mem : r ∈ s.reservationsOn r.lane := List.mem_filter.mpr ⟨hr, by simp⟩
  have berth := h.at wf lane
  generalize only : s.reservationsOn r.lane = rs at berth mem
  cases berth with
  | loading base e q entries stowed state check _ mass claim =>
    obtain rfl := List.mem_singleton.mp mem
    exact ⟨l, base, e, lane, only, entries, stowed, state, check, kind, mass, claim⟩
  | leaving base e q entries stowed state check other =>
    obtain rfl := List.mem_singleton.mp mem
    cases kind.symm.trans other
  | _ => cases mem

theorem State.Berthed.leaving {s : State} (h : s.Berthed) (wf : s.tablesOk = true) {r : Reservation}
    (hr : r ∈ s.movements) (kind : s.Discharging r) : ∃ l base e, Leaving s r l base e := by
  obtain ⟨l, lane⟩ := Option.isSome_iff_exists.mp (h.known r hr)
  have mem : r ∈ s.reservationsOn r.lane := List.mem_filter.mpr ⟨hr, by simp⟩
  have berth := h.at wf lane
  generalize only : s.reservationsOn r.lane = rs at berth mem
  cases berth with
  | loading base e q entries stowed state check load =>
    obtain rfl := List.mem_singleton.mp mem
    rcases kind with kind | ⟨k, x, held, inside, leaves⟩
    · cases load.symm.trans kind
    · have same := (Table.mem_iff_get ((State.tablesOk_iff s).mp wf).1 _ _).mp held
      cases lane.symm.trans same
      rw [entries] at inside
      rcases List.mem_append.mp inside with inside | inside
      · simp [stowed x inside] at leaves
      · obtain rfl := List.mem_singleton.mp inside
        simp [state] at leaves
  | leaving base e q entries stowed state check kind mass claim =>
    obtain rfl := List.mem_singleton.mp mem
    exact ⟨l, base, e, lane, only, entries, stowed, state, check, kind, mass, claim⟩
  | _ => cases mem

/-- A lane that holds something lies in a sealed profile. -/
theorem State.Berthed.isSealed {s : State} (h : s.Berthed) {n : Nat} {l : Lane} (lane : s.lanes.get n = some l)
    (held : l.occupied = true) : s.isSealed = true := by
  rcases h.bare with sealed | bare
  · exact sealed
  · rw [bare (n, l) (Table.mem_of_get lane)] at held
    cases held

/-- A lane and its reservations add no more than the account holds. -/
structure Within (s : State) (l : Lane) (rs : List Reservation) : Prop where
  zones : ∀ k z, s.zones.get k = some z → l.aboardIn s.zones k ≤ z.confirmed ∧
    loadMassIn k rs + l.pendingIn k ≤ z.pendingLoad
  pool : l.places ≤ s.poolInUse
  ramps : ∀ k r, s.ramps.get k = some r → countOf k rs ≤ r.count

theorem State.Ledger.within {s : State} (h : s.Ledger) (wf : s.tablesOk = true) {n : Nat} {l : Lane}
    {x y old : List Reservation} (lane : s.lanes.get n = some l) (movements : s.movements = x ++ old ++ y) :
    Within s l old := by
  obtain ⟨a, b, cut, -⟩ := Table.cut ((State.tablesOk_iff s).mp wf).1 lane
  have sums (g : Nat × Lane → Nat) : g (n, l) ≤ (s.lanes.map g).sum := by
    rw [cut]
    simp only [List.map_append, List.map_cons, List.sum_append, List.sum_cons]
    omega
  refine ⟨fun k z get => ⟨?_, ?_⟩, ?_, fun k r get => ?_⟩
  · exact (sums _).trans (h.confirmed _ (Table.mem_of_get get)).ge
  · have held := h.pending _ (Table.mem_of_get get)
    change z.pendingLoad = loadMassIn k s.movements + _ at held
    have := sums fun p => p.2.pendingIn k
    simp only [movements, loadMassIn_append] at held
    dsimp only at this
    omega
  · exact (sums _).trans h.pool.ge
  · have held := h.ramps _ (Table.mem_of_get get)
    simp only [movements, countOf_append] at held
    omega

theorem State.ended_ramps {s : State} {r : Reservation}
    (within : ∀ k q, s.ramps.get k = some q → countOf k [r] ≤ q.count) :
    ∀ k q q', s.ramps.get k = some q → (s.endReservation r).ramps.get k = some q' →
      q'.count + countOf k [r] = q.count + countOf k [] := by
  intro k q q' get get'
  have le := within k q get
  rw [State.endReservation_ramps, Table.get_modify, get] at get'
  rw [countOf_one] at le ⊢
  by_cases e : k = r.ramp
  · rw [if_pos e] at get'
    rw [if_pos e.symm] at le ⊢
    cases get'
    simp only [countOf_nil]
    omega
  · rw [if_neg e] at get'
    cases get'
    simp [Ne.symm e, countOf_nil]

theorem State.lastMass_eq {s : State} {n : Nat} {l : Lane} {base : List Entry} {e : Entry}
    (lane : s.lanes.get n = some l) (entries : l.entries = base ++ [e]) : s.lastMass n = e.unit.mass := by
  simp [State.lastMass, State.lastEntry, lane, entries]

/-- What a reservation or check record tells of its unit. -/
theorem Reservation.claim_eq {r : Reservation} {e : Entry} {zones : Table Zone} {l : Lane} {sign : Int}
    (h : r.claim = e.claim zones l sign) : r.booking = e.booking ∧
      r.delta = sign * ((e.unit.mass : Int) * l.profile.arm) ∧
      r.zone = zoneAt zones l.profile.deck (l.profile.centre e.offset e.unit.length) ∧ r.offset = e.offset := by
  simp only [Reservation.claim, Entry.claim, Claim.mk.injEq] at h
  exact h

theorem CheckRecord.claim_eq {r : CheckRecord} {e : Entry} {zones : Table Zone} {l : Lane} {sign : Int}
    (h : r.claim = e.claim zones l sign) : r.booking = e.booking ∧
      r.delta = sign * ((e.unit.mass : Int) * l.profile.arm) ∧
      r.zone = zoneAt zones l.profile.deck (l.profile.centre e.offset e.unit.length) ∧ r.offset = e.offset := by
  simp only [CheckRecord.claim, Entry.claim, Claim.mk.injEq] at h
  exact h

/-- The lane of a LOAD check record. -/
structure LoadChecked (s : State) (n : Nat) (l : Lane) (c : CheckRecord) (u : UnitBody) : Prop where
  lane : s.lanes.get n = some l
  only : s.reservationsOn n = []
  stowed : ∀ e ∈ l.entries, e.state = .stowed
  check : l.check = some c
  content : c.content = .load u
  delta : c.delta = (u.mass : Int) * l.profile.arm
  zone : c.zone = zoneAt s.zones l.profile.deck (l.profile.centre c.offset u.length)

/-- The lane of a DISCHARGE check record ends in the entry it concerns. -/
structure DischargeChecked (s : State) (n : Nat) (l : Lane) (c : CheckRecord) (base : List Entry) (e : Entry) :
    Prop where
  lane : s.lanes.get n = some l
  only : s.reservationsOn n = []
  entries : l.entries = base ++ [e]
  stowed : ∀ x ∈ base, x.state = .stowed
  state : e.state = .stowed
  check : l.check = some c
  content : c.content = .discharge
  claim : c.claim = e.claim s.zones l (-1)

theorem State.Berthed.loadChecked {s : State} (h : s.Berthed) (wf : s.tablesOk = true) {n : Nat} {l : Lane}
    {c : CheckRecord} {u : UnitBody} (lane : s.lanes.get n = some l) (check : l.check = some c)
    (content : c.content = .load u) : LoadChecked s n l c u := by
  have berth := h.at wf lane
  generalize only : s.reservationsOn n = rs at berth
  cases berth with
  | loadCheck d v stowed held load delta zone =>
    cases check.symm.trans held
    cases content.symm.trans load
    exact ⟨lane, only, stowed, check, content, delta, zone⟩
  | dischargeCheck base e d _ _ _ held discharge =>
    cases check.symm.trans held
    cases content.symm.trans discharge
  | _ => simp_all

theorem State.Berthed.dischargeChecked {s : State} (h : s.Berthed) (wf : s.tablesOk = true) {n : Nat} {l : Lane}
    {c : CheckRecord} (lane : s.lanes.get n = some l) (check : l.check = some c)
    (content : c.content = .discharge) : ∃ base e, DischargeChecked s n l c base e := by
  have berth := h.at wf lane
  generalize only : s.reservationsOn n = rs at berth
  cases berth with
  | loadCheck d v stowed held load =>
    cases check.symm.trans held
    cases content.symm.trans load
  | dischargeCheck base e d entries stowed state held discharge claim =>
    cases check.symm.trans held
    exact ⟨base, e, lane, only, entries, stowed, state, check, content, claim⟩
  | _ => simp_all

end Sys2Proof.Machine

/-! The entry operations of Table 2-2 as changes of one lane, with what they add to the account (spec/02 R22,
spec/04 R57). -/

namespace Sys2Proof.Machine

/-! What the operations share -/

@[simp] theorem State.endReservation_lastMass (s : State) (r : Reservation) (n : Nat) :
    (s.endReservation r).lastMass n = s.lastMass n := rfl

theorem State.endReservation_numbers (s : State) (r : Reservation) :
    (s.endReservation r).ramps.map (·.1) = s.ramps.map (·.1) := by
  rw [State.endReservation_ramps]
  exact Table.keys_modify ..

theorem State.addReservation_numbers (s : State) (r : Reservation) :
    (s.addReservation r).ramps.map (·.1) = s.ramps.map (·.1) := by
  rw [State.addReservation_ramps]
  exact Table.keys_modify ..

section
variable {s t : State} {n : Nat} {l l' : Lane} {f : Lane → Lane} {r : Reservation}

/-- A lane changes, the reservation on it ending. -/
theorem Rework.ended (wf : s.tablesOk = true) (planned : s.Planned) (lane : s.lanes.get r.lane = some l)
    (only : s.reservationsOn r.lane = [r]) (held : l.occupied = true)
    (lanes : t.lanes = s.lanes.modify r.lane f) (change : f l = l')
    (movements : t.movements = (s.endReservation r).movements) (ramps : t.ramps = (s.endReservation r).ramps)
    (frame : t.isSealed = s.isSealed ∧ t.sections = s.sections ∧ t.gap = s.gap)
    (account : AccountBalance s.account t.account l.momentAboard l'.momentAboard (l.dues [r]) (l'.dues []))
    (stretches : SameStretches s.zones t.zones)
    (zones : Within s l [r] → ZoneBalance s.zones t.zones (l.aboardIn s.zones) (l'.aboardIn s.zones)
      (fun k => loadMassIn k [r] + l.pendingIn k) fun k => loadMassIn k [] + l'.pendingIn k)
    (places : Within s l [r] → t.poolInUse + l.places = s.poolInUse + l'.places) :
    Rework s t r.lane l l' [r] [] := by
  obtain ⟨x, y, before, after⟩ := State.movements_cut only
  have within := planned.ledger.within wf lane before
  subst change
  refine ⟨lane, lanes.trans (Table.modify_const ((State.tablesOk_iff s).mp wf).1 lane f),
    ⟨x, y, before, movements.trans after⟩, by simp, frame.1.trans (planned.berthed.isSealed lane held), frame.2.1,
    frame.2.2, account, stretches, zones within, places within, ?_, ?_⟩
  · rw [ramps]
    exact s.endReservation_numbers r
  · rw [ramps]
    exact State.ended_ramps within.ramps

/-- A lane changes, no reservation joining or ending. -/
theorem Rework.quiet (wf : s.tablesOk = true) (planned : s.Planned) (lane : s.lanes.get n = some l)
    (held : l.occupied = true) (lanes : t.lanes = s.lanes.modify n f) (change : f l = l')
    (movements : t.movements = s.movements) (ramps : t.ramps = s.ramps)
    (frame : t.isSealed = s.isSealed ∧ t.sections = s.sections ∧ t.gap = s.gap)
    (account : AccountBalance s.account t.account l.momentAboard l'.momentAboard (l.dues []) (l'.dues []))
    (stretches : SameStretches s.zones t.zones)
    (zones : Within s l [] → ZoneBalance s.zones t.zones (l.aboardIn s.zones) (l'.aboardIn s.zones)
      (fun k => loadMassIn k [] + l.pendingIn k) fun k => loadMassIn k [] + l'.pendingIn k)
    (places : Within s l [] → t.poolInUse + l.places = s.poolInUse + l'.places) :
    Rework s t n l l' [] [] := by
  have within : Within s l [] := planned.ledger.within (x := s.movements) (y := []) wf lane (by simp)
  subst change
  refine ⟨lane, lanes.trans (Table.modify_const ((State.tablesOk_iff s).mp wf).1 lane f),
    ⟨s.movements, [], by simp, by simp [movements]⟩, by simp,
    frame.1.trans (planned.berthed.isSealed lane held), frame.2.1, frame.2.2, account, stretches, zones within,
    places within, by rw [ramps], fun k q q' get get' => ?_⟩
  rw [ramps] at get'
  cases get.symm.trans get'
  rfl

/-- A lane changes, a reservation joining. -/
theorem Rework.joined (wf : s.tablesOk = true) (sealed : s.isSealed = true) (lane : s.lanes.get n = some l)
    (here : r.lane = n) (lanes : t.lanes = s.lanes.modify n f) (change : f l = l')
    (movements : t.movements = s.movements ++ [r]) (ramps : t.ramps = (s.addReservation r).ramps)
    (frame : t.isSealed = s.isSealed ∧ t.sections = s.sections ∧ t.gap = s.gap)
    (account : AccountBalance s.account t.account l.momentAboard l'.momentAboard (l.dues []) (l'.dues [r]))
    (stretches : SameStretches s.zones t.zones)
    (zones : ZoneBalance s.zones t.zones (l.aboardIn s.zones) (l'.aboardIn s.zones)
      (fun k => loadMassIn k [] + l.pendingIn k) fun k => loadMassIn k [r] + l'.pendingIn k)
    (places : t.poolInUse + l.places = s.poolInUse + l'.places) : Rework s t n l l' [] [r] := by
  subst change
  refine ⟨lane, lanes.trans (Table.modify_const ((State.tablesOk_iff s).mp wf).1 lane f),
    ⟨s.movements, [], by simp, by simp [movements]⟩, by simpa using here, frame.1.trans sealed, frame.2.1,
    frame.2.2, account, stretches, zones, places, ?_, fun k q q' get get' => ?_⟩
  · rw [ramps]
    exact s.addReservation_numbers r
  · rw [ramps, State.addReservation_ramps, Table.get_modify, get] at get'
    rw [countOf_one, countOf_nil]
    by_cases e : k = r.ramp
    · rw [if_pos e] at get'
      cases get'
      rw [if_pos e.symm]
    · rw [if_neg e] at get'
      cases get'
      rw [if_neg (Ne.symm e)]

end

/-! The lanes that the operations make -/

/-- A lane with another list, check record and mass. -/
def Lane.become (l : Lane) (entries : List Entry) (check : Option CheckRecord) (mass : Nat) : Lane :=
  { l with entries := entries, check := check, mass := mass }

/-- A check record whose reservation `r` concerned the entry `e`. -/
def lapsed (r : Reservation) (e : Entry) (content : CheckContent) : CheckRecord where
  booking := e.booking
  ramp := r.ramp
  delta := r.delta
  zone := r.zone
  offset := e.offset
  content := content

section
variable {s : State} {r : Reservation} {l : Lane} {base : List Entry} {e : Entry}

theorem Loading.stow (h : Loading s r l base e) (wf : s.tablesOk = true) (planned : s.Planned) :
    Rework s ((s.endReservation r).opStow r.lane r.delta r.zone) r.lane l
      (l.become (base ++ [{ e with state := .stowed }]) none (l.mass + e.unit.mass)) [r] [] := by
  obtain ⟨-, delta, zone, -⟩ := Reservation.claim_eq h.claim
  have mass := State.lastMass_eq h.lane h.entries
  refine Rework.ended wf planned h.lane h.only (by simp [Lane.occupied, h.entries])
    (State.opStow_lanes ..) ?_ rfl rfl ⟨rfl, rfl, rfl⟩ (.confirmDelta ?_ ?_ ?_) (.onZone _ _ (Zone.confirm _) fun _ => rfl) (fun within => ?_) fun _ => ?_
  · simp [Lane.become, h.entries, setLast_concat, mass, h.check]
  · simp [Lane.momentAboard_eq, Lane.become, h.entries, momentOf_concat, h.state, delta]
  · simp [Lane.dues, h.check]
  · rfl
  · rw [State.opStow_zones, State.endReservation_lastMass, mass]
    refine ZoneBalance.confirm (fun k z get => (within.zones k z get).2) (fun k => ?_) (fun k => ?_)
    · simp [Lane.aboardIn_eq, Lane.become, h.entries, massAt_concat, h.state, zone]
    · simp [loadMassIn_load h.kind, loadMassIn_nil, Lane.pendingIn, Lane.loadCheck?, Lane.become, h.check, h.mass]
  · simp [State.opStow, Lane.places, Lane.loadCheck?, Lane.become, h.check, h.entries]

theorem Loading.backOut (h : Loading s r l base e) (wf : s.tablesOk = true) (planned : s.Planned) :
    Rework s ((s.endReservation r).opBackOut r.lane r.delta r.zone) r.lane l (l.become base none l.mass)
      [r] [] := by
  obtain ⟨-, delta, zone, -⟩ := Reservation.claim_eq h.claim
  have mass := State.lastMass_eq h.lane h.entries
  refine Rework.ended wf planned h.lane h.only (by simp [Lane.occupied, h.entries])
    (State.opBackOut_lanes ..) ?_ rfl rfl ⟨rfl, rfl, rfl⟩ (.dropDelta ?_ ?_ ?_) (.onZone _ _ (Zone.dropPending _) fun _ => rfl) (fun within => ?_) fun within => ?_
  · simp [Lane.become, h.entries, h.check]
  · simp [Lane.momentAboard_eq, Lane.become, h.entries, momentOf_concat, h.state]
  · simp [Lane.dues, h.check]
  · rfl
  · rw [State.opBackOut_zones, State.endReservation_lastMass, mass]
    refine ZoneBalance.dropPending (fun k z get => (within.zones k z get).2) (fun k => ?_) (fun k => ?_)
    · simp [Lane.aboardIn_eq, Lane.become, h.entries, massAt_concat, h.state]
    · simp [loadMassIn_load h.kind, loadMassIn_nil, Lane.pendingIn, Lane.loadCheck?, Lane.become, h.check, h.mass]
  · have := within.pool
    simp [State.opBackOut, Lane.places, Lane.loadCheck?, Lane.become, h.check, h.entries] at this ⊢
    omega

theorem Loading.lapse (h : Loading s r l base e) (wf : s.tablesOk = true) (planned : s.Planned) :
    Rework s ((s.endReservation r).opLapseLoad r.lane r.ramp r.delta r.zone) r.lane l
      (l.become base (some (lapsed r e (.load e.unit))) l.mass) [r] [] := by
  refine Rework.ended wf planned h.lane h.only (by simp [Lane.occupied, h.entries])
    (State.opLapseLoad_lanes ..) ?_ rfl rfl ⟨rfl, rfl, rfl⟩ (.same ?_ ?_) rfl (fun _ => .same (fun k => ?_) fun k => ?_) fun _ => ?_
  · simp [Lane.lapseLoad, Lane.become, lapsed, h.entries]
  · simp [Lane.momentAboard_eq, Lane.become, h.entries, momentOf_concat, h.state]
  · simp [Lane.dues, h.check, Lane.become, lapsed]
  · simp [Lane.aboardIn_eq, Lane.become, h.entries, massAt_concat, h.state]
  · simp [loadMassIn_load h.kind, loadMassIn_nil, Lane.pendingIn, Lane.loadCheck?, Lane.become, h.check, h.mass,
      lapsed, CheckRecord.unit?]
  · simp [State.opLapseLoad, Lane.places, Lane.loadCheck?, Lane.become, h.check, h.entries, lapsed, CheckRecord.unit?]

theorem Leaving.offload (h : Leaving s r l base e) (wf : s.tablesOk = true) (planned : s.Planned) :
    Rework s ((s.endReservation r).opOffload r.lane r.delta r.zone) r.lane l
      (l.become base none (l.mass - e.unit.mass)) [r] [] := by
  obtain ⟨-, delta, zone, -⟩ := Reservation.claim_eq h.claim
  have mass := State.lastMass_eq h.lane h.entries
  refine Rework.ended wf planned h.lane h.only (by simp [Lane.occupied, h.entries])
    (State.opOffload_lanes ..) ?_ rfl rfl ⟨rfl, rfl, rfl⟩ (.confirmDelta ?_ ?_ ?_) (.onZone _ _ (Zone.unload _) fun _ => rfl) (fun within => ?_) fun within => ?_
  · simp [Lane.become, h.entries, mass, h.check]
  · simp [Lane.momentAboard_eq, Lane.become, h.entries, momentOf_concat, h.state, delta]
  · simp [Lane.dues, h.check]
  · rfl
  · rw [State.opOffload_zones, State.endReservation_lastMass, mass]
    refine ZoneBalance.unload (fun k z get => (within.zones k z get).1) (fun k => ?_) (fun k => ?_)
    · simp [Lane.aboardIn_eq, Lane.become, h.entries, massAt_concat, h.state, zone]
    · simp [loadMassIn_discharge h.kind, loadMassIn_nil, Lane.pendingIn, Lane.loadCheck?, Lane.become, h.check]
  · have := within.pool
    simp [State.opOffload, Lane.places, Lane.loadCheck?, Lane.become, h.check, h.entries] at this ⊢
    omega

theorem Leaving.keep (h : Leaving s r l base e) (wf : s.tablesOk = true) (planned : s.Planned) :
    Rework s ((s.endReservation r).opKeep r.lane r.delta) r.lane l
      (l.become (base ++ [{ e with state := .stowed }]) none l.mass) [r] [] := by
  refine Rework.ended wf planned h.lane h.only (by simp [Lane.occupied, h.entries])
    (State.opKeep_lanes ..) ?_ rfl rfl ⟨rfl, rfl, rfl⟩ (.dropDelta ?_ ?_ ?_) rfl (fun _ => .same (fun k => ?_) fun k => ?_) fun _ => ?_
  · simp [Lane.become, h.entries, setLast_concat, h.check]
  · simp [Lane.momentAboard_eq, Lane.become, h.entries, momentOf_concat, h.state]
  · simp [Lane.dues, h.check]
  · rfl
  · simp [Lane.aboardIn_eq, Lane.become, h.entries, massAt_concat, h.state]
  · simp [loadMassIn_discharge h.kind, loadMassIn_nil, Lane.pendingIn, Lane.loadCheck?, Lane.become, h.check]
  · simp [State.opKeep, Lane.places, Lane.loadCheck?, Lane.become, h.check, h.entries]

theorem Leaving.lapse (h : Leaving s r l base e) (wf : s.tablesOk = true) (planned : s.Planned) :
    Rework s ((s.endReservation r).opLapseDischarge r.lane r.ramp r.delta r.zone) r.lane l
      (l.become (base ++ [{ e with state := .stowed }]) (some (lapsed r e .discharge)) l.mass) [r] [] := by
  refine Rework.ended wf planned h.lane h.only (by simp [Lane.occupied, h.entries])
    (State.opLapseDischarge_lanes ..) ?_ rfl rfl ⟨rfl, rfl, rfl⟩ (.same ?_ ?_) rfl (fun _ => .same (fun k => ?_) fun k => ?_) fun _ => ?_
  · simp [Lane.lapseDischarge, Lane.become, lapsed, h.entries, setLast_concat]
  · simp [Lane.momentAboard_eq, Lane.become, h.entries, momentOf_concat, h.state]
  · simp [Lane.dues, h.check, Lane.become, lapsed]
  · simp [Lane.aboardIn_eq, Lane.become, h.entries, massAt_concat, h.state]
  · simp [loadMassIn_discharge h.kind, loadMassIn_nil, Lane.pendingIn, Lane.loadCheck?, Lane.become, h.check,
      lapsed, CheckRecord.unit?]
  · simp [State.opLapseDischarge, Lane.places, Lane.loadCheck?, Lane.become, h.check, h.entries, lapsed, CheckRecord.unit?]

end

section
variable {s : State} {n : Nat} {l : Lane} {c : CheckRecord} {u : UnitBody} {base : List Entry} {e : Entry}

theorem LoadChecked.stowLate (h : LoadChecked s n l c u) (wf : s.tablesOk = true) (planned : s.Planned) :
    Rework s (s.opStowLate n c u) n l
      (l.become (l.entries ++ [{ booking := c.booking, unit := u, offset := c.offset, state := .stowed }]) none
        (l.mass + u.mass)) [] [] := by
  refine Rework.quiet wf planned h.lane (by simp [Lane.occupied, h.check])
    (State.opStowLate_lanes ..) rfl rfl rfl ⟨rfl, rfl, rfl⟩ (.confirmDelta ?_ ?_ ?_) (.onZone _ _ (Zone.confirm _) fun _ => rfl) (fun within => ?_) fun _ => ?_
  · simp [Lane.momentAboard_eq, Lane.become, momentOf_concat, h.delta]
  · simp [Lane.dues, h.check]
  · rfl
  · refine ZoneBalance.confirm (fun k z get => (within.zones k z get).2) (fun k => ?_) (fun k => ?_)
    · simp [Lane.aboardIn_eq, Lane.become, massAt_concat, h.zone]
    · simp [loadMassIn_nil, Lane.pendingIn, Lane.loadCheck?, Lane.become, h.check, h.content, CheckRecord.unit?]
  · simp [State.opStowLate, Lane.places, Lane.loadCheck?, Lane.become, h.check, h.content, CheckRecord.unit?]

theorem LoadChecked.drop (h : LoadChecked s n l c u) (wf : s.tablesOk = true) (planned : s.Planned) :
    Rework s (s.opDropLoadCheck n c u) n l (l.become l.entries none l.mass) [] [] := by
  refine Rework.quiet wf planned h.lane (by simp [Lane.occupied, h.check])
    (State.opDropLoadCheck_lanes ..) rfl rfl rfl ⟨rfl, rfl, rfl⟩ (.dropDelta ?_ ?_ ?_) (.onZone _ _ (Zone.dropPending _) fun _ => rfl) (fun within => ?_) fun within => ?_
  · rfl
  · simp [Lane.dues, h.check]
  · rfl
  · refine ZoneBalance.dropPending (fun k z get => (within.zones k z get).2) (fun k => rfl) (fun k => ?_)
    simp [loadMassIn_nil, Lane.pendingIn, Lane.loadCheck?, Lane.become, h.check, h.content, CheckRecord.unit?]
  · have := within.pool
    simp [State.opDropLoadCheck, Lane.places, Lane.loadCheck?, Lane.become, h.check, h.content, CheckRecord.unit?] at this ⊢
    omega

theorem DischargeChecked.offloadLate (h : DischargeChecked s n l c base e) (wf : s.tablesOk = true)
    (planned : s.Planned) :
    Rework s (s.opOffloadLate n c) n l (l.become base none (l.mass - e.unit.mass)) [] [] := by
  obtain ⟨-, delta, zone, -⟩ := CheckRecord.claim_eq h.claim
  have mass := State.lastMass_eq h.lane h.entries
  refine Rework.quiet wf planned h.lane (by simp [Lane.occupied, h.check])
    (State.opOffloadLate_lanes ..) ?_ rfl rfl ⟨rfl, rfl, rfl⟩ (.confirmDelta ?_ ?_ ?_) (.onZone _ _ (Zone.unload _) fun _ => rfl) (fun within => ?_) fun within => ?_
  · simp [Lane.become, h.entries, mass]
  · simp [Lane.momentAboard_eq, Lane.become, h.entries, momentOf_concat, h.state, delta]
  · simp [Lane.dues, h.check]
  · rfl
  · rw [State.opOffloadLate_zones, mass]
    refine ZoneBalance.unload (fun k z get => (within.zones k z get).1) (fun k => ?_) (fun k => ?_)
    · simp [Lane.aboardIn_eq, Lane.become, h.entries, massAt_concat, h.state, zone]
    · simp [loadMassIn_nil, Lane.pendingIn, Lane.loadCheck?, Lane.become, h.check, h.content, CheckRecord.unit?]
  · have := within.pool
    simp [State.opOffloadLate, Lane.places, Lane.loadCheck?, Lane.become, h.check, h.content, CheckRecord.unit?, h.entries] at this ⊢
    omega

theorem DischargeChecked.drop (h : DischargeChecked s n l c base e) (wf : s.tablesOk = true)
    (planned : s.Planned) :
    Rework s (s.opDropDischargeCheck n c) n l (l.become l.entries none l.mass) [] [] := by
  refine Rework.quiet wf planned h.lane (by simp [Lane.occupied, h.check])
    (State.opDropDischargeCheck_lanes ..) rfl rfl rfl ⟨rfl, rfl, rfl⟩ (.dropDelta ?_ ?_ ?_) rfl (fun _ => .same (fun k => rfl) fun k => ?_) fun _ => ?_
  · rfl
  · simp [Lane.dues, h.check]
  · rfl
  · simp [loadMassIn_nil, Lane.pendingIn, Lane.loadCheck?, Lane.become, h.check, h.content, CheckRecord.unit?]
  · simp [State.opDropDischargeCheck, Lane.places, Lane.loadCheck?, Lane.become, h.check, h.content, CheckRecord.unit?]

end

/-! Admissions -/

section
variable {s : State} {n ramp : Nat} {l : Lane} {u : UnitBody} {b : Booking} {base : List Entry} {e : Entry}

/-- A lane that displays neither AWAY nor MOVING nor CHECK has no check record, and its section holds a
position (R28). -/
theorem State.displayed_clear (away : s.displayed l ≠ .away) (moving : s.displayed l ≠ .moving)
    (check : s.displayed l ≠ .check) : l.check = none ∧ s.laneMoving l = false := by
  unfold State.displayed at away moving check
  by_cases a : s.laneAway l = true
  · simp [a] at away
  · by_cases m : s.laneMoving l = true
    · simp [a, m] at moving
    · by_cases c : l.check.isSome = true
      · simp [a, m, c] at check
      · exact ⟨by simpa using c, by simpa using m⟩

/-- A lane whose section holds a position is undisturbed, whatever it carries (R26). -/
theorem Lane.undisturbed_of_holds {k : Lane} (profile : k.profile = l.profile) (h : s.laneMoving l = false) :
    k.undisturbed s.sections = true := by
  unfold State.laneMoving State.laneSection at h
  unfold Lane.undisturbed
  rw [profile]
  cases e : l.profile.relation.section?.bind s.sections.get with
  | none => rfl
  | some c =>
    rw [e] at h
    simp only [Bool.not_eq_false'] at h
    simp [h]

/-- The open-end entry of a lane that a unit may be released from. -/
structure Open (s : State) (n : Nat) (l : Lane) (base : List Entry) (e : Entry) : Prop where
  lane : s.lanes.get n = some l
  only : s.reservationsOn n = []
  entries : l.entries = base ++ [e]
  stowed : ∀ x ∈ base, x.state = .stowed
  state : e.state = .stowed
  check : l.check = none

theorem State.Berthed.only_nil (h : s.Berthed) (wf : s.tablesOk = true) (lane : s.lanes.get n = some l)
    (idle : l.inService = false) : s.reservationsOn n = [] := by
  have berth := h.at wf lane
  have stowed := Lane.inService_false.mp idle
  generalize s.reservationsOn n = rs at berth
  cases berth with
  | loading base e r entries _ state =>
    have := stowed e (by simp [entries])
    simp [state] at this
  | leaving base e r entries _ state =>
    have := stowed e (by simp [entries])
    simp [state] at this
  | _ => rfl

theorem State.Releasable.isOpen {row : Ramp} {f : Found} (h : s.Releasable row b f) (wf : s.tablesOk = true)
    (berthed : s.Berthed) : ∃ base, Open s f.laneNo f.lane base f.entry := by
  obtain ⟨mem, booking, first, at_⟩ := State.findEntry_some h.found
  have lane := (Table.mem_iff_get ((State.tablesOk_iff s).mp wf).1 _ _).mp mem
  obtain ⟨check, -⟩ := State.displayed_clear h.shown.2.2 h.shown.2.1 h.shown.1
  have last : f.lane.entries.getLast? = some f.entry := by
    have le := (List.getElem?_eq_some_iff.mp at_).1
    have := h.last
    rw [List.getLast?_eq_getElem?, show f.lane.entries.length - 1 = f.position - 1 by omega, at_]
  obtain ⟨base, entries⟩ := List.getLast?_eq_some_iff.mp last
  have stowed := Lane.inService_false.mp h.idle
  exact ⟨base, lane, berthed.only_nil wf lane h.idle, entries,
    fun x hx => stowed x (by simp [entries, hx]), h.stowed, check⟩

theorem Open.release {f : Found} (h : Open s f.laneNo f.lane base f.entry) (wf : s.tablesOk = true)
    (sealed : s.isSealed = true) :
    Rework s ((s.opRelease f.laneNo (-(f.entry.unit.mass * f.lane.profile.arm))).addReservation
        (s.releaseReservation ramp f)) f.laneNo f.lane
      (f.lane.become (base ++ [{ f.entry with state := .leaving }]) none f.lane.mass) []
      [s.releaseReservation ramp f] := by
  refine Rework.joined wf sealed h.lane rfl (s.opRelease_lanes f.laneNo 0) ?_ rfl rfl ⟨rfl, rfl, rfl⟩
    (.addDelta (d := -(f.entry.unit.mass * f.lane.profile.arm)) ?_ ?_ ?_) rfl (.same (fun k => ?_) fun k => ?_) ?_
  · simp [Lane.become, h.entries, setLast_concat, h.check]
  · simp [Lane.momentAboard_eq, Lane.become, h.entries, momentOf_concat, h.state]
  · simp [Lane.dues, h.check]
  · simp [Lane.dues, Lane.become, State.releaseReservation]
  · simp [Lane.aboardIn_eq, Lane.become, h.entries, massAt_concat, h.state]
  · simp [loadMassIn_discharge (r := s.releaseReservation ramp f) rfl, loadMassIn_nil, Lane.pendingIn,
      Lane.loadCheck?, Lane.become, h.check]
  · simp [State.opRelease, State.addReservation, Lane.places, Lane.loadCheck?, Lane.become, h.check, h.entries]

/-- A lane that a unit may be placed in. -/
structure Free (s : State) (n : Nat) (l : Lane) : Prop where
  lane : s.lanes.get n = some l
  only : s.reservationsOn n = []
  stowed : ∀ e ∈ l.entries, e.state = .stowed
  check : l.check = none

/-- The entry of an admission. -/
def reservedEntry (s : State) (l : Lane) (b : Booking) (u : UnitBody) : Entry where
  booking := b
  unit := u
  offset := s.laneEnd l
  state := .reserved

/-- The reservation of an admission. -/
def State.loadReservation (s : State) (ramp n : Nat) (l : Lane) (b : Booking) (u : UnitBody) : Reservation where
  kind := .load
  lane := n
  ramp := ramp
  booking := b
  mass := u.mass
  delta := u.mass * l.profile.arm
  zone := s.slotZone l.profile (s.laneEnd l) u.length
  offset := s.laneEnd l
  seq := s.seqNext
  seconds := s.timeout

theorem Free.reserve (h : Free s n l) (wf : s.tablesOk = true) (sealed : s.isSealed = true) :
    Rework s (s.reserveLoad ramp b u (s.slotOf n l u)) n l
      (l.become (l.entries ++ [reservedEntry s l b u]) none l.mass) [] [s.loadReservation ramp n l b u] := by
  refine Rework.joined wf sealed h.lane rfl (s.opPlace_lanes n 0 none _) ?_ rfl rfl ⟨rfl, rfl, rfl⟩
    (.addDelta (d := u.mass * l.profile.arm) ?_ ?_ ?_) (.onZone _ _ (Zone.addPending _) fun _ => rfl)
    (.addPending (fun k => ?_) fun k => ?_) ?_
  · simp [Lane.become, h.check, reservedEntry, State.slotOf]
  · simp [Lane.momentAboard_eq, Lane.become, momentOf_concat, reservedEntry]
  · simp [Lane.dues, h.check]
  · simp [Lane.dues, Lane.become, State.loadReservation]
  · simp [Lane.aboardIn_eq, Lane.become, massAt_concat, reservedEntry]
  · simp [loadMassIn_load (r := s.loadReservation ramp n l b u) rfl, loadMassIn_nil, Lane.pendingIn,
      Lane.loadCheck?, Lane.become, h.check]
    rfl
  · simp [State.reserveLoad, State.setUnitState, State.addReservation, State.opPlace, State.onRamp, Lane.places,
      Lane.loadCheck?, Lane.become, h.check]
    omega

end

end Sys2Proof.Machine

/-! Every operation of Table 2-2 keeps the laws of lanes, account, register and Waiting List (spec/02 R19 to
R26, spec/03 R43, R44, spec/04 R55 to R57). -/

namespace Sys2Proof.Machine

section
variable {s t : State} {n : Nat} {l l' : Lane} {old new : List Reservation}

/-! What is kept beside the account -/

theorem Rework.withRegister (h : Rework s t n l l' old new) (reg : List UnitRecord) :
    Rework s { t with register := reg } n l l' old new := { h with }

theorem Rework.withWaiting (h : Rework s t n l l' old new) (ws : List Waiting) :
    Rework s { t with waiting := ws } n l l' old new := { h with }

/-- A lane that carries a movement is undisturbed because its section holds a position, and stays so (R26). -/
theorem Lane.undisturbed_of_carried {sections : Table Sect} {k : Lane} (h : l.undisturbed sections = true)
    (carried : l.inService = true ∨ l.check.isSome = true) (profile : k.profile = l.profile) :
    k.undisturbed sections = true := by
  unfold Lane.undisturbed at *
  rw [profile]
  split
  · rename_i c e
    rw [e] at h
    simp only [Bool.or_eq_true, Bool.and_eq_true, Bool.not_eq_true', Option.isNone_iff_eq_none] at h ⊢
    rcases h with h | ⟨idle, bare⟩
    · exact .inl h
    · rcases carried with carried | carried <;> simp_all
  · rfl

theorem Rework.holdings (h : Rework s t n l l' old new) (wf : s.tablesOk = true) : ∃ pre post,
    holdings s.lanes = pre ++ l.holds ++ post ∧ holdings t.lanes = pre ++ l'.holds ++ post := by
  obtain ⟨a, b, cut, -, modified⟩ := Table.cut ((State.tablesOk_iff s).mp wf).1 h.lane
  refine ⟨Machine.holdings a, Machine.holdings b, ?_, ?_⟩
  · rw [cut]
    simp [Machine.holdings]
  · rw [h.lanes, modified]
    simp [Machine.holdings]

/-- What a lane holds is what it held. -/
theorem Rework.booked_same (h : Rework s t n l l' old new) (wf : s.tablesOk = true)
    (booked : Booked s.lanes s.register) (same : l'.holds = l.holds) : Booked t.lanes s.register := by
  obtain ⟨pre, post, before, after⟩ := h.holdings wf
  have equal : Machine.holdings t.lanes = Machine.holdings s.lanes := by rw [before, after, same]
  exact ⟨booked.records, equal ▸ booked.bookings, equal ▸ booked.stands, equal ▸ booked.placed⟩

variable {kept oldH : List (Booking × Holding)} {b : Booking} {reg : List UnitRecord}

/-- A booking that stood in the lane or nowhere stands nowhere else. -/
theorem Booked.away {lanes : Table Lane} {register : List UnitRecord} {pre post kept oldH}
    (h : Booked lanes register) (before : Machine.holdings lanes = pre ++ (kept ++ oldH) ++ post)
    (hold : ∀ p ∈ oldH, p.1 = b) (present : oldH ≠ [] ∨ ∀ x, (b, x) ∉ Machine.holdings lanes) (x : Holding) :
    (b, x) ∉ (pre ++ kept) ++ post := by
  rcases present with ne | absent
  · intro mem
    have bookings := h.bookings
    rw [before] at bookings
    obtain ⟨p, rest, rfl⟩ := List.exists_cons_of_ne_nil ne
    have perm : (pre ++ (kept ++ p :: rest) ++ post).Perm (p :: (rest ++ (pre ++ kept ++ post))) := by
      have : (pre ++ (kept ++ p :: rest) ++ post) = (pre ++ kept) ++ p :: (rest ++ post) := by simp
      rw [this]
      refine List.perm_middle.trans (List.Perm.cons _ ?_)
      simpa using (List.perm_append_comm_assoc (pre ++ kept) rest post)
    have nodup := (perm.map (·.1)).nodup_iff.mp bookings
    rw [List.map_cons, List.nodup_cons] at nodup
    refine nodup.1 ?_
    rw [hold p (by simp), List.map_append, List.mem_append]
    exact .inr (List.mem_map_of_mem (f := (·.1)) mem)
  · intro mem
    apply absent x
    rw [before]
    simp only [List.mem_append] at mem ⊢
    tauto

/-- A booking takes a new place in its lane, with the record that goes with it. -/
theorem Rework.booked_moved (h : Rework s t n l l' old new) (wf : s.tablesOk = true)
    (booked : Booked s.lanes s.register) {x : Holding} (before : l.holds = kept ++ oldH)
    (after : l'.holds = kept ++ [(b, x)]) (hold : ∀ p ∈ oldH, p.1 = b)
    (present : oldH ≠ [] ∨ ∀ y, (b, y) ∉ Machine.holdings s.lanes) (stay : OthersStay s.register reg b)
    (record : stateIn reg b = x.record) : Booked t.lanes reg := by
  obtain ⟨pre, post, lanes, lanes'⟩ := h.holdings wf
  rw [before] at lanes
  rw [after] at lanes'
  refine booked.change (pre := pre ++ kept) (new := [(b, x)]) (by rw [lanes]; simp) (by rw [lanes']; simp)
    (booked.away lanes hold present) hold (by simp) (by simp) stay (fun y mem => ?_) fun y st here rec => ?_
  · simp only [List.mem_singleton, Prod.mk.injEq, true_and] at mem
    exact mem ▸ record
  · simp [Holding.record_injective (rec.trans (here.symm.trans record))]

/-- A booking leaves its lane, and its record says so. -/
theorem Rework.booked_left (h : Rework s t n l l' old new) (wf : s.tablesOk = true)
    (booked : Booked s.lanes s.register) (before : l.holds = kept ++ oldH) (after : l'.holds = kept)
    (hold : ∀ p ∈ oldH, p.1 = b) (present : oldH ≠ []) (stay : OthersStay s.register reg b)
    (hr : stateIn reg b ≠ some .reserved) (hc : stateIn reg b ≠ some .check) : Booked t.lanes reg := by
  obtain ⟨pre, post, lanes, lanes'⟩ := h.holdings wf
  rw [before] at lanes
  rw [after] at lanes'
  refine booked.change (pre := pre ++ kept) (new := []) (by rw [lanes]; simp) (by rw [lanes']; simp)
    (booked.away lanes hold (.inl present)) hold (by simp) (by simp) stay (by simp) fun y st here rec => ?_
  cases y <;> simp_all [Holding.record]

theorem Rework.planned (h : Rework s t n l l' old new) (wf : s.tablesOk = true) (planned : s.Planned)
    (only : s.reservationsOn n = old) (berth : Berth s.zones l' new) (calm : l'.undisturbed s.sections = true)
    (packed : l'.packed s.gap = true) (mass : l'.mass = l'.massAboard) (booked : Booked t.lanes t.register)
    (waits : Waits t.waiting t.register) : t.Planned :=
  ⟨booked, waits, h.berthed wf planned.berthed only berth calm packed mass, h.ledger wf planned.ledger⟩

end

/-! The laws of one lane, read off the state -/

/-- What the laws say of the lane under a number. -/
theorem State.Planned.at {s : State} (h : s.Planned) (wf : s.tablesOk = true) {n : Nat} {l : Lane}
    (lane : s.lanes.get n = some l) : l.undisturbed s.sections = true ∧ l.packed s.gap = true ∧
      l.mass = massOf l.entries := by
  have mem := (Table.mem_iff_get ((State.tablesOk_iff s).mp wf).1 n l).mpr lane
  exact ⟨h.berthed.calm _ mem, h.berthed.packed _ mem, h.berthed.mass _ mem⟩

/-- Where the booking of a lane stands in all lanes. -/
theorem State.Planned.record {s : State} (h : s.Planned) {n : Nat} {l : Lane} (lane : s.lanes.get n = some l)
    {b : Booking} {x : Holding} (mem : (b, x) ∈ l.holds) : stateIn s.register b = x.record :=
  h.booked.stands b x (mem_holdings.mpr ⟨(n, l), Table.mem_of_get lane, mem⟩)

/-! Packed lists after an operation -/

section
variable {gap : Nat} {l : Lane} {base : List Entry} {e : Entry}

/-- The open-end entry takes another state. -/
theorem Lane.packed_restate (h : l.packed gap = true) (entries : l.entries = base ++ [e]) (check : l.loadCheck? = none)
    {ck : Option CheckRecord} {m : Nat} {st : EntryState}
    (still : (l.become (base ++ [{ e with state := st }]) ck m).loadCheck? = none) :
    (l.become (base ++ [{ e with state := st }]) ck m).packed gap = true := by
  obtain ⟨offsets, places, fits, -⟩ := Lane.packed_iff.mp h
  rw [entries] at offsets fits
  rw [offsetsOk_concat] at offsets
  refine Lane.packed_iff.mpr ⟨offsetsOk_concat .. |>.mpr offsets, ?_, ?_, ?_⟩
  · rw [Lane.places, still]
    simp [Lane.places, check, Lane.become, entries] at places ⊢
    omega
  · simpa [Lane.become, or_imp, forall_and] using fits
  · simp [still]

/-- The open-end entry leaves the list. -/
theorem Lane.packed_shorten (h : l.packed gap = true) (entries : l.entries = base ++ [e]) {m : Nat} :
    (l.become base none m).packed gap = true := by
  obtain ⟨offsets, places, fits, -⟩ := Lane.packed_iff.mp h
  rw [entries, offsetsOk_concat] at offsets
  rw [entries] at fits
  refine Lane.packed_iff.mpr ⟨offsets.1, ?_, fun x hx => fits x (by simp [show x ∈ base from hx]), ?_⟩
  · simp [Lane.places, Lane.become, Lane.loadCheck?, entries] at places ⊢
    omega
  · simp [Lane.become, Lane.loadCheck?]

/-- The check record leaves the lane. -/
theorem Lane.packed_uncheck (h : l.packed gap = true) {m : Nat} : (l.become l.entries none m).packed gap = true := by
  obtain ⟨offsets, places, fits, -⟩ := Lane.packed_iff.mp h
  refine Lane.packed_iff.mpr ⟨offsets, ?_, fits, ?_⟩
  · simp [Lane.places, Lane.become, Lane.loadCheck?] at places ⊢
    omega
  · simp [Lane.become, Lane.loadCheck?]

/-- The open-end entry passes into a LOAD check record. -/
theorem Lane.packed_lapse (h : l.packed gap = true) (entries : l.entries = base ++ [e]) {r : Reservation} {m : Nat} :
    (l.become base (some (lapsed r e (.load e.unit))) m).packed gap = true := by
  obtain ⟨offsets, places, fits, -⟩ := Lane.packed_iff.mp h
  rw [entries, offsetsOk_concat] at offsets
  rw [entries] at fits
  refine Lane.packed_iff.mpr ⟨offsets.1, ?_, fun x hx => fits x (by simp [show x ∈ base from hx]), ?_⟩
  · simp [Lane.places, Lane.become, Lane.loadCheck?, entries, lapsed, CheckRecord.unit?] at places ⊢
    omega
  · simpa [Lane.become, Lane.loadCheck?, lapsed, CheckRecord.unit?] using offsets.2

/-- An entry joins the list where it ends. -/
theorem Lane.packed_extend (h : l.packed gap = true) (offset : e.offset = endOf gap l.entries)
    (room : l.entries.length < 24) (fits : e.offset + e.unit.length ≤ l.profile.length) {m : Nat} :
    (l.become (l.entries ++ [e]) none m).packed gap = true := by
  obtain ⟨offsets, -, others, -⟩ := Lane.packed_iff.mp h
  refine Lane.packed_iff.mpr ⟨(offsetsOk_concat ..).mpr ⟨offsets, by simpa using offset⟩, ?_, ?_, ?_⟩
  · simp [Lane.places, Lane.become, Lane.loadCheck?]
    omega
  · intro x hx
    rcases List.mem_append.mp hx with hx | hx
    · exact others x hx
    · exact List.mem_singleton.mp hx ▸ fits
  · simp [Lane.become, Lane.loadCheck?]

end

/-! The operations -/

/-- A booking in one state of record is not in another. -/
theorem ne_of_state {o o' : Option UnitState} {st : UnitState} (h : o = o') (ne : o' ≠ some st) : o ≠ some st :=
  h ▸ ne

section
variable {s : State} {r : Reservation} {l : Lane} {base : List Entry} {e : Entry}

/-- What a lane with a RESERVED entry holds. -/
theorem Loading.holds (h : Loading s r l base e) :
    l.holds = base.map (fun x => (x.booking, x.holding)) ++ [(r.booking, .reserved)] := by
  obtain ⟨booking, -⟩ := Reservation.claim_eq h.claim
  simp [Lane.holds, h.entries, Lane.loadCheck_none h.check, Entry.holding, h.state, booking]

theorem Loading.record (h : Loading s r l base e) (planned : s.Planned) :
    stateIn s.register r.booking = some .reserved :=
  planned.record h.lane (b := r.booking) (x := .reserved) (by simp [h.holds])

theorem Loading.calm (h : Loading s r l base e) (wf : s.tablesOk = true) (planned : s.Planned) {k : Lane}
    (profile : k.profile = l.profile) : k.undisturbed s.sections = true := by
  refine Lane.undisturbed_of_carried (planned.at wf h.lane).1 (.inl ?_) profile
  simp [Lane.inService, h.entries, h.state]

/-- Stow keeps the laws. -/
theorem State.Planned.stow (planned : s.Planned) (wf : s.tablesOk = true) (hr : r ∈ s.movements)
    (kind : r.kind = .load) :
    (((s.endReservation r).opStow r.lane r.delta r.zone).removeRecord r.booking).Planned := by
  obtain ⟨l, base, e, h⟩ := planned.berthed.loading wf hr kind
  obtain ⟨-, packed, mass⟩ := planned.at wf h.lane
  obtain ⟨booking, -⟩ := Reservation.claim_eq h.claim
  have stay := OthersStay.removeRecord s r.booking
  have gone : stateIn (s.removeRecord r.booking).register r.booking = none := by
    simp [State.stateIn_removeRecord]
  refine ((h.stow wf planned).withRegister _).planned wf planned h.only (.idle ?_ rfl) (h.calm wf planned rfl)
    (Lane.packed_restate packed h.entries (Lane.loadCheck_none h.check) rfl) ?_
    ((h.stow wf planned).booked_moved wf planned.booked (x := .aboard) h.holds ?_ (by simp) (.inl (by simp)) stay
      gone)
    (planned.waits.record stay (ne_of_state (h.record planned) (by simp)) (ne_of_state gone (by simp)))
  · simpa [Lane.become, or_imp, forall_and] using h.stowed
  · simp [Lane.massAboard_eq, Lane.become, mass, h.entries, massOf_concat, h.state]
  · simp [Lane.holds, Lane.become, Lane.loadCheck?, Entry.holding, booking]

/-- Back out keeps the laws. -/
theorem State.Planned.backOut (planned : s.Planned) (wf : s.tablesOk = true) (hr : r ∈ s.movements)
    (kind : r.kind = .load) :
    (((s.endReservation r).opBackOut r.lane r.delta r.zone).setUnitState r.booking .announced).Planned := by
  obtain ⟨l, base, e, h⟩ := planned.berthed.loading wf hr kind
  obtain ⟨-, packed, mass⟩ := planned.at wf h.lane
  have stay := OthersStay.setUnitState s r.booking .announced
  have back : stateIn (s.setUnitState r.booking .announced).register r.booking = some .announced := by
    simp [State.stateIn_setUnitState, h.record planned]
  refine ((h.backOut wf planned).withRegister _).planned wf planned h.only (.idle h.stowed rfl)
    (h.calm wf planned rfl) (Lane.packed_shorten packed h.entries) ?_
    ((h.backOut wf planned).booked_left wf planned.booked h.holds ?_ (by simp) (by simp) stay
      (ne_of_state back (by simp)) (ne_of_state back (by simp)))
    (planned.waits.record stay (ne_of_state (h.record planned) (by simp)) (ne_of_state back (by simp)))
  · simp [Lane.massAboard_eq, Lane.become, mass, h.entries, massOf_concat, h.state]
  · simp [Lane.holds, Lane.become, Lane.loadCheck?]

/-- Lapse load keeps the laws. -/
theorem State.Planned.lapseLoad (planned : s.Planned) (wf : s.tablesOk = true) (hr : r ∈ s.movements)
    (kind : r.kind = .load) :
    (((s.endReservation r).opLapseLoad r.lane r.ramp r.delta r.zone).setUnitState r.booking .check).Planned := by
  obtain ⟨l, base, e, h⟩ := planned.berthed.loading wf hr kind
  obtain ⟨-, packed, mass⟩ := planned.at wf h.lane
  obtain ⟨booking, delta, zone, -⟩ := Reservation.claim_eq h.claim
  have stay := OthersStay.setUnitState s r.booking .check
  have checked : stateIn (s.setUnitState r.booking .check).register r.booking = some .check := by
    simp [State.stateIn_setUnitState, h.record planned]
  refine ((h.lapse wf planned).withRegister _).planned wf planned h.only
    (.loadCheck (lapsed r e (.load e.unit)) e.unit h.stowed rfl rfl ?_ zone)
    (h.calm wf planned rfl) (Lane.packed_lapse packed h.entries) ?_
    ((h.lapse wf planned).booked_moved wf planned.booked (x := .check) h.holds ?_ (by simp) (.inl (by simp)) stay
      checked)
    (planned.waits.record stay (ne_of_state (h.record planned) (by simp)) (ne_of_state checked (by simp)))
  · simpa [lapsed, Lane.deltaOf, Lane.become] using delta
  · simp [Lane.massAboard_eq, Lane.become, mass, h.entries, massOf_concat, h.state]
  · simp [Lane.holds, Lane.become, Lane.loadCheck?, lapsed, CheckRecord.unit?, booking]

/-- What a lane with a LEAVING entry holds. -/
theorem Leaving.holds (h : Leaving s r l base e) :
    l.holds = base.map (fun x => (x.booking, x.holding)) ++ [(r.booking, .aboard)] := by
  obtain ⟨booking, -⟩ := Reservation.claim_eq h.claim
  simp [Lane.holds, h.entries, Lane.loadCheck_none h.check, Entry.holding, h.state, booking]

theorem Leaving.record (h : Leaving s r l base e) (planned : s.Planned) :
    stateIn s.register r.booking = none :=
  planned.record h.lane (b := r.booking) (x := .aboard) (by simp [h.holds])

theorem Leaving.calm (h : Leaving s r l base e) (wf : s.tablesOk = true) (planned : s.Planned) {k : Lane}
    (profile : k.profile = l.profile) : k.undisturbed s.sections = true := by
  refine Lane.undisturbed_of_carried (planned.at wf h.lane).1 (.inl ?_) profile
  simp [Lane.inService, h.entries, h.state]

/-- Offload keeps the laws. -/
theorem State.Planned.offload (planned : s.Planned) (wf : s.tablesOk = true) (hr : r ∈ s.movements)
    (kind : s.Discharging r) : ((s.endReservation r).opOffload r.lane r.delta r.zone).Planned := by
  obtain ⟨l, base, e, h⟩ := planned.berthed.leaving wf hr kind
  obtain ⟨-, packed, mass⟩ := planned.at wf h.lane
  refine (h.offload wf planned).planned wf planned h.only (.idle h.stowed rfl)
    (h.calm wf planned rfl) (Lane.packed_shorten packed h.entries) ?_
    ((h.offload wf planned).booked_left wf planned.booked h.holds ?_ (by simp) (by simp) (.refl _ _)
      (ne_of_state (h.record planned) (by simp)) (ne_of_state (h.record planned) (by simp))) planned.waits
  · simp [Lane.massAboard_eq, Lane.become, mass, h.entries, massOf_concat, h.state]
  · simp [Lane.holds, Lane.become, Lane.loadCheck?]

/-- Keep keeps the laws. -/
theorem State.Planned.keep (planned : s.Planned) (wf : s.tablesOk = true) (hr : r ∈ s.movements)
    (kind : s.Discharging r) : ((s.endReservation r).opKeep r.lane r.delta).Planned := by
  obtain ⟨l, base, e, h⟩ := planned.berthed.leaving wf hr kind
  obtain ⟨-, packed, mass⟩ := planned.at wf h.lane
  obtain ⟨booking, -⟩ := Reservation.claim_eq h.claim
  refine (h.keep wf planned).planned wf planned h.only (.idle ?_ rfl) (h.calm wf planned rfl)
    (Lane.packed_restate packed h.entries (Lane.loadCheck_none h.check) rfl) ?_
    ((h.keep wf planned).booked_same wf planned.booked ?_) planned.waits
  · simpa [Lane.become, or_imp, forall_and] using h.stowed
  · simp [Lane.massAboard_eq, Lane.become, mass, h.entries, massOf_concat, h.state]
  · rw [h.holds]
    simp [Lane.holds, Lane.become, Lane.loadCheck?, Entry.holding, booking]

/-- Lapse discharge keeps the laws. -/
theorem State.Planned.lapseDischarge (planned : s.Planned) (wf : s.tablesOk = true) (hr : r ∈ s.movements)
    (kind : r.kind = .discharge) :
    ((s.endReservation r).opLapseDischarge r.lane r.ramp r.delta r.zone).Planned := by
  obtain ⟨l, base, e, h⟩ := planned.berthed.leaving wf hr (.inl kind)
  obtain ⟨-, packed, mass⟩ := planned.at wf h.lane
  obtain ⟨booking, delta, zone, -⟩ := Reservation.claim_eq h.claim
  refine (h.lapse wf planned).planned wf planned h.only
    (.dischargeCheck base { e with state := .stowed } (lapsed r e .discharge) rfl h.stowed rfl rfl rfl ?_)
    (h.calm wf planned rfl) (Lane.packed_restate packed h.entries (Lane.loadCheck_none h.check) rfl) ?_
    ((h.lapse wf planned).booked_same wf planned.booked ?_) planned.waits
  · simp only [CheckRecord.claim, Entry.claim, lapsed, Claim.mk.injEq, true_and, and_true]
    exact ⟨delta, zone⟩
  · simp [Lane.massAboard_eq, Lane.become, mass, h.entries, massOf_concat, h.state]
  · rw [h.holds]
    simp [Lane.holds, Lane.become, Lane.loadCheck?, Entry.holding, booking, lapsed, CheckRecord.unit?]

end

section
variable {s : State} {n : Nat} {l : Lane} {c : CheckRecord} {u : UnitBody} {base : List Entry} {e : Entry}

theorem LoadChecked.holds (h : LoadChecked s n l c u) :
    l.holds = l.entries.map (fun x => (x.booking, x.holding)) ++ [(c.booking, .check)] := by
  simp [Lane.holds, Lane.loadCheck_load h.check h.content]

theorem LoadChecked.record (h : LoadChecked s n l c u) (planned : s.Planned) :
    stateIn s.register c.booking = some .check :=
  planned.record h.lane (b := c.booking) (x := .check) (by simp [h.holds])

theorem LoadChecked.calm (h : LoadChecked s n l c u) (wf : s.tablesOk = true) (planned : s.Planned) {k : Lane}
    (profile : k.profile = l.profile) : k.undisturbed s.sections = true :=
  Lane.undisturbed_of_carried (planned.at wf h.lane).1 (.inr (by simp [h.check])) profile

/-- Stow late keeps the laws where the unit's slot lies within the lane. -/
theorem State.Planned.stowLate (planned : s.Planned) (wf : s.tablesOk = true) (lane : s.lanes.get n = some l)
    (check : l.check = some c) (content : c.content = .load u) (fits : c.offset + u.length ≤ l.profile.length) :
    ((s.opStowLate n c u).removeRecord c.booking).Planned := by
  have h := planned.berthed.loadChecked wf lane check content
  obtain ⟨-, packed, mass⟩ := planned.at wf h.lane
  obtain ⟨-, places, -, offset⟩ := Lane.packed_iff.mp packed
  have load := Lane.loadCheck_load h.check h.content
  have stay := OthersStay.removeRecord s c.booking
  have gone : stateIn (s.removeRecord c.booking).register c.booking = none := by
    simp [State.stateIn_removeRecord]
  refine ((h.stowLate wf planned).withRegister _).planned wf planned h.only (.idle ?_ rfl) (h.calm wf planned rfl)
    (Lane.packed_extend packed (offset _ load) ?_ fits) ?_
    ((h.stowLate wf planned).booked_moved wf planned.booked (x := .aboard) h.holds ?_ (by simp) (.inl (by simp))
      stay gone)
    (planned.waits.record stay (ne_of_state (h.record planned) (by simp)) (ne_of_state gone (by simp)))
  · simpa [Lane.become, or_imp, forall_and] using h.stowed
  · simp [Lane.places, load] at places
    omega
  · simp [Lane.massAboard_eq, Lane.become, mass, massOf_concat]
  · simp [Lane.holds, Lane.become, Lane.loadCheck?, Entry.holding]

/-- Drop load check keeps the laws. -/
theorem State.Planned.dropLoad (planned : s.Planned) (wf : s.tablesOk = true) (lane : s.lanes.get n = some l)
    (check : l.check = some c) (content : c.content = .load u) :
    ((s.opDropLoadCheck n c u).setUnitState c.booking .announced).Planned := by
  have h := planned.berthed.loadChecked wf lane check content
  obtain ⟨-, packed, mass⟩ := planned.at wf h.lane
  have stay := OthersStay.setUnitState s c.booking .announced
  have back : stateIn (s.setUnitState c.booking .announced).register c.booking = some .announced := by
    simp [State.stateIn_setUnitState, h.record planned]
  refine ((h.drop wf planned).withRegister _).planned wf planned h.only (.idle h.stowed rfl)
    (h.calm wf planned rfl) (Lane.packed_uncheck packed) mass
    ((h.drop wf planned).booked_left wf planned.booked h.holds ?_ (by simp) (by simp) stay
      (ne_of_state back (by simp)) (ne_of_state back (by simp)))
    (planned.waits.record stay (ne_of_state (h.record planned) (by simp)) (ne_of_state back (by simp)))
  simp [Lane.holds, Lane.become, Lane.loadCheck?]

theorem DischargeChecked.holds (h : DischargeChecked s n l c base e) :
    l.holds = base.map (fun x => (x.booking, x.holding)) ++ [(e.booking, .aboard)] := by
  simp [Lane.holds, h.entries, Lane.loadCheck_discharge h.check h.content, Entry.holding, h.state]

theorem DischargeChecked.calm (h : DischargeChecked s n l c base e) (wf : s.tablesOk = true)
    (planned : s.Planned) {k : Lane} (profile : k.profile = l.profile) : k.undisturbed s.sections = true :=
  Lane.undisturbed_of_carried (planned.at wf h.lane).1 (.inr (by simp [h.check])) profile

/-- Offload late keeps the laws. -/
theorem State.Planned.offloadLate (planned : s.Planned) (wf : s.tablesOk = true) (lane : s.lanes.get n = some l)
    (check : l.check = some c) (content : c.content = .discharge) : (s.opOffloadLate n c).Planned := by
  obtain ⟨base, e, h⟩ := planned.berthed.dischargeChecked wf lane check content
  obtain ⟨-, packed, mass⟩ := planned.at wf h.lane
  have record : stateIn s.register e.booking = none :=
    planned.record h.lane (b := e.booking) (x := .aboard) (by simp [h.holds])
  refine (h.offloadLate wf planned).planned wf planned h.only (.idle h.stowed rfl)
    (h.calm wf planned rfl) (Lane.packed_shorten packed h.entries) ?_
    ((h.offloadLate wf planned).booked_left wf planned.booked h.holds ?_ (by simp) (by simp) (.refl _ _)
      (ne_of_state record (by simp)) (ne_of_state record (by simp))) planned.waits
  · simp [Lane.massAboard_eq, Lane.become, mass, h.entries, massOf_concat, h.state]
  · simp [Lane.holds, Lane.become, Lane.loadCheck?]

/-- Drop discharge check keeps the laws. -/
theorem State.Planned.dropDischarge (planned : s.Planned) (wf : s.tablesOk = true)
    (lane : s.lanes.get n = some l) (check : l.check = some c) (content : c.content = .discharge) :
    (s.opDropDischargeCheck n c).Planned := by
  obtain ⟨base, e, h⟩ := planned.berthed.dischargeChecked wf lane check content
  obtain ⟨-, packed, mass⟩ := planned.at wf h.lane
  refine (h.drop wf planned).planned wf planned h.only (.idle ?_ rfl) (h.calm wf planned rfl)
    (Lane.packed_uncheck packed) mass ((h.drop wf planned).booked_same wf planned.booked ?_) planned.waits
  · simpa [Lane.become, h.entries, h.state, or_imp, forall_and] using h.stowed
  · rw [h.holds]
    simp [Lane.holds, Lane.become, Lane.loadCheck?, h.entries, Entry.holding, h.state]

end

/-! Admissions -/

section
variable {s : State} {n ramp : Nat} {l : Lane} {u : UnitBody} {b : Booking}

/-- Release keeps the laws. -/
theorem State.Planned.release (planned : s.Planned) (wf : s.tablesOk = true) (sealed : s.isSealed = true)
    {row : Ramp} {f : Found} (h : s.Releasable row b f) :
    ((s.opRelease f.laneNo (-(f.entry.unit.mass * f.lane.profile.arm))).addReservation
      (s.releaseReservation ramp f)).Planned := by
  obtain ⟨base, o⟩ := h.isOpen wf planned.berthed
  obtain ⟨-, packed, mass⟩ := planned.at wf o.lane
  obtain ⟨-, holds⟩ := State.displayed_clear h.shown.2.2 h.shown.2.1 h.shown.1
  refine (o.release wf sealed).planned wf planned o.only
    (.leaving base { f.entry with state := .leaving } _ rfl o.stowed rfl rfl rfl rfl ?_)
    (Lane.undisturbed_of_holds rfl holds)
    (Lane.packed_restate packed o.entries (Lane.loadCheck_none o.check) rfl) ?_
    ((o.release wf sealed).booked_same wf planned.booked ?_) planned.waits
  · simp [Reservation.claim, State.releaseReservation, Entry.claim, Lane.deltaOf, Lane.become, Lane.zoneOf,
      State.slotZone]
  · simp [Lane.massAboard_eq, Lane.become, mass, o.entries, massOf_concat, o.state]
  · simp [Lane.holds, Lane.become, Lane.loadCheck?, Entry.holding, o.entries, o.check, o.state]

/-- The lane an examination chooses is free, shows OPEN or FILLING, and has room for the unit (R86, R87). -/
theorem State.Takes.free {mask : Nat} (h : s.Takes mask u l) (wf : s.tablesOk = true) (planned : s.Planned)
    (lane : s.lanes.get n = some l) : Free s n l ∧ s.laneMoving l = false := by
  have clear : l.check = none ∧ s.laneMoving l = false := by
    rcases h.shown with shown | shown <;>
      exact State.displayed_clear (by simp [shown]) (by simp [shown]) (by simp [shown])
  exact ⟨⟨lane, planned.berthed.only_nil wf lane (Lane.inService_false.mpr h.idle), h.idle, clear.1⟩, clear.2⟩

/-- Reservation of a lane that takes the unit keeps the laws, whatever becomes of the Waiting List. -/
theorem State.Planned.reserve (planned : s.Planned) (wf : s.tablesOk = true) (sealed : s.isSealed = true)
    {mask : Nat} (takes : s.Takes mask u l) (lane : s.lanes.get n = some l) {st : UnitState}
    (record : stateIn s.register b = some st) (hr : st ≠ .reserved) (hc : st ≠ .check) {ws : List Waiting}
    (waits : Waits ws (s.setUnitState b .reserved).register) :
    ({ s.reserveLoad ramp b u (s.slotOf n l u) with waiting := ws } : State).Planned := by
  obtain ⟨free, holds⟩ := takes.free wf planned lane
  obtain ⟨-, packed, mass⟩ := planned.at wf lane
  have rework := free.reserve (ramp := ramp) (b := b) (u := u) wf sealed
  have reserved : stateIn (s.setUnitState b .reserved).register b = some .reserved := by
    simp [State.stateIn_setUnitState, record]
  refine (rework.withWaiting ws).planned wf planned free.only
    (.loading l.entries (reservedEntry s l b u) _ rfl free.stowed rfl rfl rfl rfl ?_)
    (Lane.undisturbed_of_holds rfl holds) (Lane.packed_extend packed rfl takes.room takes.length) ?_
    (rework.booked_moved wf planned.booked (kept := l.holds) (oldH := []) (x := .reserved) (by simp) ?_ (by simp)
      (.inr (planned.booked.nowhere record hr hc)) (.setUnitState s b _) reserved) waits
  · simp [Reservation.claim, State.loadReservation, Entry.claim, Lane.deltaOf, Lane.become, Lane.zoneOf,
      State.slotZone, reservedEntry]
  · simp [Lane.massAboard_eq, Lane.become, mass, massOf_concat, reservedEntry]
  · simp [Lane.holds, Lane.become, Lane.loadCheck?, Entry.holding, free.check, reservedEntry]

end

end Sys2Proof.Machine

/-! Every other change keeps the laws of lanes, account, register and Waiting List. -/

namespace Sys2Proof.Machine

/-! Lanes resettled -/

section
variable {a b : Table Lane}

theorem lanesResettled.map_eq {β : Type} (h : lanesResettled a b) (g : Nat × Lane → β)
    (same : ∀ n (l l' : Lane), l.Resettled l' → g (n, l') = g (n, l)) : b.map g = a.map g := by
  induction h with
  | nil => rfl
  | @cons p q _ _ one _ ih =>
    obtain ⟨n, l⟩ := p
    obtain ⟨m, l'⟩ := q
    obtain ⟨rfl : n = m, resettled⟩ := one
    rw [List.map_cons, List.map_cons, ih, same n l l' resettled]

theorem lanesResettled.all {P : Nat × Lane → Prop} (h : lanesResettled a b)
    (keeps : ∀ n (l l' : Lane), l.Resettled l' → P (n, l) → P (n, l')) (k : ∀ p ∈ a, P p) : ∀ p ∈ b, P p := by
  induction h with
  | nil => exact fun _ hp => nomatch hp
  | @cons p q _ _ one _ ih =>
    obtain ⟨n, l⟩ := p
    obtain ⟨m, l'⟩ := q
    obtain ⟨rfl : n = m, resettled⟩ := one
    rw [List.forall_mem_cons] at k ⊢
    exact ⟨keeps n l l' resettled k.1, ih k.2⟩

variable {l l' : Lane}

theorem Lane.Resettled.loadCheck (h : l.Resettled l') : l'.loadCheck? = l.loadCheck? := by
  simp [Lane.loadCheck?, h.check]

theorem Lane.Resettled.holds (h : l.Resettled l') : l'.holds = l.holds := by
  simp [Lane.holds, h.entries, h.loadCheck]

theorem Lane.Resettled.berth {zones : Table Zone} {rs : List Reservation} (h : l.Resettled l')
    (k : Berth zones l rs) : Berth zones l' rs := by
  obtain ⟨profile, entries, check, mass, -⟩ := h
  have claim (e : Entry) (sign : Int) : e.claim zones l' sign = e.claim zones l sign := by
    simp [Entry.claim, Lane.deltaOf, Lane.zoneOf, profile]
  cases k with
  | idle stowed bare => exact .idle (entries ▸ stowed) (check.trans bare)
  | loading base e r list stowed state bare kind mass same =>
    exact .loading base e r (entries.trans list) stowed state (check.trans bare) kind mass
      (same.trans (claim e 1).symm)
  | leaving base e r list stowed state bare kind mass same =>
    exact .leaving base e r (entries.trans list) stowed state (check.trans bare) kind mass
      (same.trans (claim e (-1)).symm)
  | loadCheck c u stowed held content delta zone =>
    exact .loadCheck c u (entries ▸ stowed) (check.trans held) content (by simpa [Lane.deltaOf, profile] using delta)
      (by simpa [Lane.zoneOf, profile] using zone)
  | dischargeCheck base e c list stowed state held content same =>
    exact .dischargeCheck base e c (entries.trans list) stowed state (check.trans held) content
      (same.trans (claim e (-1)).symm)

theorem Lane.Resettled.undisturbed {sections : Table Sect} (h : l.Resettled l') :
    l'.undisturbed sections = l.undisturbed sections := by
  simp [Lane.undisturbed, Lane.inService, h.profile, h.entries, h.check]

theorem Lane.Resettled.packed {gap : Nat} (h : l.Resettled l') (k : l.packed gap = true) : l'.packed gap = true := by
  rw [Lane.packed_iff] at *
  rwa [Lane.places, h.entries, h.loadCheck, h.profile]

theorem Lane.Resettled.massAboard (h : l.Resettled l') : l'.massAboard = l.massAboard := by
  simp [Lane.massAboard_eq, h.entries]

theorem State.Planned.resettled {s : State} {t : Table Lane} (planned : s.Planned)
    (h : lanesResettled s.lanes t) : ({ s with lanes := t } : State).Planned := by
  obtain ⟨booked, waits, ⟨berth, calm, packed, mass, known, bare⟩, ⟨tc, plus, minus, confirmed, pending, pool,
    ramps⟩⟩ := planned
  have holdings : holdings t = holdings s.lanes := by
    have each := h.map_eq (fun p => p.2.holds) fun _ _ _ k => k.holds
    rw [Machine.holdings, Machine.holdings, List.flatMap_def, List.flatMap_def, each]
  have deltas : ({ s with lanes := t } : State).pendingDeltas = s.pendingDeltas := by
    have checks := h.map_eq (fun p => p.2.check.map (·.delta)) fun _ _ _ k => by simp [k.check]
    have each (x : Table Lane) : x.filterMap (fun p => p.2.check.map (·.delta)) =
        (x.map fun p => p.2.check.map (·.delta)).filterMap id := by simp [List.filterMap_map]
    simp only [State.pendingDeltas]
    rw [each t, each s.lanes, checks]
  have pendingMass (z : Nat) : ({ s with lanes := t } : State).pendingMass z = s.pendingMass z := by
    simp only [State.pendingMass]
    rw [h.map_eq _ fun _ _ _ k => by simp [Lane.pendingIn, k.loadCheck]]
  refine ⟨⟨booked.records, holdings ▸ booked.bookings, holdings ▸ booked.stands, holdings ▸ booked.placed⟩, waits,
    ⟨h.all (fun _ _ _ k => k.berth) berth, h.all (fun _ _ _ k => k.undisturbed.trans) calm,
      h.all (fun _ _ _ k => k.packed) packed, h.all (fun _ _ _ k e => ?_) mass, fun r hr => ?_, ?_⟩,
    ⟨?_, deltas ▸ plus, deltas ▸ minus, fun z hz => ?_, fun z hz => ?_, ?_, ramps⟩⟩
  · rw [k.mass, k.massAboard]
    exact e
  · have := known r hr
    rw [Table.get_isSome_iff] at this ⊢
    exact h.numbers ▸ this
  · refine bare.imp id (h.all fun _ _ _ k e => ?_)
    simpa [Lane.occupied, k.entries, k.check] using e
  · rw [h.map_eq _ fun _ _ _ k => by simp [Lane.momentAboard_eq, k.profile, k.entries]]
    exact tc
  · rw [h.map_eq _ fun _ _ _ k => by simp [Lane.aboardIn_eq, k.profile, k.entries]]
    exact confirmed z hz
  · rw [pendingMass]
    exact pending z hz
  · rw [h.map_eq _ fun _ _ _ k => by simp [Lane.places, k.entries, k.loadCheck]]
    exact pool

end

/-! Time, sections and ramps -/

theorem Berth.aged {zones : Table Zone} {l : Lane} {rs : List Reservation} (h : Berth zones l rs) :
    Berth zones l (rs.map Reservation.second) := by
  cases h with
  | idle stowed check => exact .idle stowed check
  | loading base e r entries stowed state check kind mass claim =>
    exact .loading base e r.second entries stowed state check kind mass claim
  | leaving base e r entries stowed state check kind mass claim =>
    exact .leaving base e r.second entries stowed state check kind mass claim
  | loadCheck c u stowed check content delta zone => exact .loadCheck c u stowed check content delta zone
  | dischargeCheck base e c entries stowed state check content claim =>
    exact .dischargeCheck base e c entries stowed state check content claim

theorem State.Planned.aged {s : State} (planned : s.Planned) :
    ({ s with movements := s.movements.map Reservation.second } : State).Planned := by
  obtain ⟨booked, waits, ⟨berth, calm, packed, mass, known, bare⟩, ⟨tc, plus, minus, confirmed, pending, pool,
    ramps⟩⟩ := planned
  have deltas : ({ s with movements := s.movements.map Reservation.second } : State).pendingDeltas =
      s.pendingDeltas := by
    simp only [State.pendingDeltas, List.map_map]
    rfl
  refine ⟨booked, waits, ⟨fun p hp => ?_, calm, packed, mass, ?_, bare⟩,
    ⟨tc, deltas ▸ plus, deltas ▸ minus, confirmed, fun z hz => ?_, pool, fun r hr => ?_⟩⟩
  · have on : ({ s with movements := s.movements.map Reservation.second } : State).reservationsOn p.1 =
        (s.reservationsOn p.1).map Reservation.second := by
      simp only [State.reservationsOn, List.filter_map]
      rfl
    rw [on]
    exact (berth p hp).aged
  · intro r hr
    obtain ⟨q, hq, rfl⟩ := List.mem_map.mp hr
    exact known q hq
  · rw [pending z hz]
    simp only [State.pendingMass, List.filter_map, List.map_map]
    rfl
  · rw [ramps r hr]
    simp only [countOf, List.filter_map, List.length_map]
    rfl

/-- A section may change where it holds a position still, held none before, or no affected lane carries a
pending movement (R26). -/
theorem State.Planned.withSections {s : State} (planned : s.Planned) {t : Table Sect}
    (h : s.isSealed = true → ∀ n d, t.get n = some d → d.holds = true ∨
      ∃ c, s.sections.get n = some c ∧ (c.holds = false ∨ s.pendingLanes n = [])) :
    ({ s with sections := t } : State).Planned := by
  obtain ⟨booked, waits, ⟨berth, calm, packed, mass, known, bare⟩, ledger⟩ := planned
  refine ⟨booked, waits, ⟨berth, fun p hp => ?_, packed, mass, known, bare⟩, { ledger with }⟩
  unfold Lane.undisturbed
  split
  case h_2 => rfl
  case h_1 d found =>
    obtain ⟨n, relation, get⟩ := Option.bind_eq_some_iff.mp found
    rcases bare with sealed | bare
    case inr =>
      obtain ⟨entries, check⟩ : p.2.entries = [] ∧ p.2.check = none := by simpa [Lane.occupied] using bare p hp
      simp [Lane.inService, entries, check]
    rcases h sealed n d get with holds | ⟨c, was, free⟩
    · simp [holds]
    · have idle : p.2.inService = false ∧ p.2.check = none := by
        rcases free with low | none_
        · have := calm p hp
          rw [Lane.undisturbed, relation, Option.bind_some, was] at this
          simpa [low] using this
        · have affected : p ∈ s.affectedLanes n := by
            simp [State.affectedLanes, hp, Lane.affectedBy, relation]
          have quiet : s.pendingMovement p.1 p.2 = false := by
            by_contra pending
            have mem : p.1 ∈ s.pendingLanes n :=
              List.mem_map_of_mem (List.mem_filter.mpr ⟨affected, by simpa using pending⟩)
            rw [none_] at mem
            cases mem
          simp only [State.pendingMovement, Bool.or_eq_false_iff, Option.isSome_eq_false_iff,
            Option.isNone_iff_eq_none, List.any_eq_false, decide_eq_true_eq] at quiet
          have on : s.reservationsOn p.1 = [] := List.filter_eq_nil_iff.mpr (by simpa using quiet.2)
          have stands := berth p hp
          rw [on] at stands
          refine ⟨Lane.inService_false.mpr ?_, quiet.1⟩
          cases stands with
          | idle stowed => exact stowed
          | loadCheck c u stowed check => exact stowed
          | dischargeCheck base e c entries stowed state check => simp [quiet.1] at check
      simp [idle]

theorem State.Planned.onRamp {s : State} (planned : s.Planned) (r : Nat) (f : Ramp → Ramp)
    (h : ∀ q, (f q).count = q.count) : (s.onRamp r f).Planned := by
  obtain ⟨booked, waits, berthed, ⟨tc, plus, minus, confirmed, pending, pool, ramps⟩⟩ := planned
  refine ⟨booked, waits, { berthed with }, ⟨tc, plus, minus, confirmed, pending, pool, fun q hq => ?_⟩⟩
  obtain ⟨p, hp, rfl⟩ := List.mem_map.mp hq
  have := ramps p hp
  split
  · exact (h p.2).trans this
  · exact this

/-! A plan without units -/

/-- No lane holds anything, no movement is pending, and the account stands at 0. -/
structure State.Vacant (s : State) : Prop where
  lanes : ∀ p ∈ s.lanes, p.2.occupied = false ∧ p.2.mass = 0
  movements : s.movements = []
  tc : s.account.tc = 0
  plus : s.account.pPlus = 0
  minus : s.account.pMinus = 0
  zones : ∀ z ∈ s.zones, z.2.confirmed = 0 ∧ z.2.pendingLoad = 0
  pool : s.poolInUse = 0
  ramps : ∀ r ∈ s.ramps, r.2.count = 0

theorem Lane.occupied_false {l : Lane} : l.occupied = false ↔ l.entries = [] ∧ l.check = none := by
  simp [Lane.occupied]

theorem holdings_vacant {lanes : Table Lane} (h : ∀ p ∈ lanes, p.2.occupied = false) : holdings lanes = [] := by
  refine List.flatMap_eq_nil_iff.mpr fun p hp => ?_
  obtain ⟨entries, check⟩ := Lane.occupied_false.mp (h p hp)
  simp [Lane.holds, entries, Lane.loadCheck_none check]

theorem sum_vacant {α β : Type} [AddMonoid β] {lanes : List α} {g : α → β} (h : ∀ p ∈ lanes, g p = 0) :
    (lanes.map g).sum = 0 := List.sum_eq_zero (by simpa using h)

theorem State.Vacant.pendingDeltas {s : State} (movements : s.movements = [])
    (h : ∀ p ∈ s.lanes, p.2.occupied = false) : s.pendingDeltas = [] := by
  simp only [State.pendingDeltas, movements, List.map_nil, List.nil_append, List.filterMap_eq_nil_iff]
  intro p hp
  simp [(Lane.occupied_false.mp (h p hp)).2]

theorem State.Planned.vacant {s : State} (planned : s.Planned) (bare : ∀ p ∈ s.lanes, p.2.occupied = false)
    (movements : s.movements = []) : s.Vacant := by
  obtain ⟨-, -, ⟨-, -, -, mass, -, -⟩, ⟨tc, plus, minus, confirmed, pending, pool, ramps⟩⟩ := planned
  have entries {p : Nat × Lane} (hp : p ∈ s.lanes) := (Lane.occupied_false.mp (bare p hp)).1
  have check {p : Nat × Lane} (hp : p ∈ s.lanes) := Lane.loadCheck_none (Lane.occupied_false.mp (bare p hp)).2
  have deltas := State.Vacant.pendingDeltas movements bare
  refine ⟨fun p hp => ⟨bare p hp, (mass p hp).trans (by simp [Lane.massAboard_eq, massOf, entries hp])⟩, movements,
    tc.trans (sum_vacant fun p hp => by simp [Lane.momentAboard_eq, momentOf, entries hp]),
    plus.trans (by simp [deltas]), minus.trans (by simp [deltas]), fun z hz => ⟨?_, ?_⟩,
    pool.trans (sum_vacant fun p hp => by simp [Lane.places, entries hp, check hp]), fun r hr => ?_⟩
  · exact (confirmed z hz).trans (sum_vacant fun p hp => by simp [Lane.aboardIn_eq, massAt, entries hp])
  · rw [pending z hz, State.pendingMass, movements,
      sum_vacant (lanes := s.lanes) fun p hp => Lane.pendingIn_of_none (check hp) z.1]
    rfl
  · rw [ramps r hr, movements]
    rfl

theorem State.Vacant.planned {s : State} (v : s.Vacant) (records : (s.register.map (·.booking)).Nodup)
    (free : ∀ b, stateIn s.register b ≠ some .reserved ∧ stateIn s.register b ≠ some .check)
    (waits : Waits s.waiting s.register) : s.Planned := by
  have bare : ∀ p ∈ s.lanes, p.2.occupied = false := fun p hp => (v.lanes p hp).1
  have entries {p : Nat × Lane} (hp : p ∈ s.lanes) := (Lane.occupied_false.mp (bare p hp)).1
  have unchecked {p : Nat × Lane} (hp : p ∈ s.lanes) := (Lane.occupied_false.mp (bare p hp)).2
  have check {p : Nat × Lane} (hp : p ∈ s.lanes) := Lane.loadCheck_none (unchecked hp)
  have deltas := State.Vacant.pendingDeltas v.movements bare
  have none_ := holdings_vacant bare
  refine ⟨⟨records, by simp [none_], by simp [none_], fun b x st here rec => ?_⟩, waits,
    ⟨fun p hp => ?_, fun p hp => ?_, fun p hp => ?_, fun p hp => ?_, by simp [v.movements], .inr bare⟩,
    ⟨?_, by simp [deltas, v.plus], by simp [deltas, v.minus], fun z hz => ?_, fun z hz => ?_, ?_, fun r hr => ?_⟩⟩
  · have := free b
    cases x <;> simp_all [Holding.record]
  · have on : s.reservationsOn p.1 = [] := by simp [State.reservationsOn, v.movements]
    rw [on]
    exact .idle (by simp [entries hp]) (unchecked hp)
  · unfold Lane.undisturbed
    split
    · simp [Lane.inService, entries hp, unchecked hp]
    · rfl
  · refine Lane.packed_iff.mpr ⟨by simp [entries hp, offsetsOk], by simp [Lane.places, entries hp, check hp],
      by simp [entries hp], by simp [check hp]⟩
  · rw [(v.lanes p hp).2]
    simp [Lane.massAboard_eq, massOf, entries hp]
  · rw [v.tc, sum_vacant fun p hp => by simp [Lane.momentAboard_eq, momentOf, entries hp]]
  · rw [(v.zones z hz).1, sum_vacant fun p hp => by simp [Lane.aboardIn_eq, massAt, entries hp]]
  · rw [(v.zones z hz).2, State.pendingMass, v.movements,
      sum_vacant (lanes := s.lanes) fun p hp => Lane.pendingIn_of_none (check hp) z.1]
    rfl
  · rw [v.pool, sum_vacant fun p hp => by simp [Lane.places, entries hp, check hp]]
  · rw [v.ramps r hr, v.movements]
    rfl

end Sys2Proof.Machine

/-! The laws of lanes, account, register and Waiting List, kept by every move; O16 to O19. -/

namespace Sys2Proof.Machine

/-! Records in other states -/

theorem stateIn_mapState (register : List UnitRecord) (g : UnitState → UnitState) (b : Booking) :
    stateIn (register.map fun r => { r with state := g r.state }) b = (stateIn register b).map g := by
  simp only [stateIn, List.find?_map, Option.map_map]
  rfl

theorem bookings_mapState (register : List UnitRecord) (g : UnitState → UnitState) :
    (register.map fun r => { r with state := g r.state }).map (·.booking) = register.map (·.booking) := by
  rw [List.map_map]
  rfl

/-- The units of a list of waiting elements become EXCLUDED. -/
theorem stateIn_shutOut (ws : List Waiting) (s : State) (b : Booking) :
    stateIn (ws.foldl (fun t w => t.setUnitState w.booking .excluded) s).register b =
      if b ∈ ws.map (·.booking) then (stateIn s.register b).map fun _ => .excluded else stateIn s.register b := by
  induction ws generalizing s with
  | nil => simp
  | cons w ws ih =>
    rw [List.foldl_cons, ih, State.stateIn_setUnitState, List.map_cons]
    by_cases e : b = w.booking
    · by_cases m : b ∈ ws.map (·.booking)
      · simp [e ▸ m, e, Function.comp_def]
      · simp [e, Function.comp_def]
    · by_cases m : b ∈ ws.map (·.booking)
      · rw [if_pos m, if_neg e, if_pos (by simp [m])]
      · rw [if_neg m, if_neg e, if_neg (by simp [m, e])]

theorem bookings_shutOut (ws : List Waiting) (s : State) :
    (ws.foldl (fun t w => t.setUnitState w.booking .excluded) s).register.map (·.booking) =
      s.register.map (·.booking) := by
  induction ws generalizing s with
  | nil => rfl
  | cons w ws ih => rw [List.foldl_cons, ih, State.bookings_setUnitState]

/-- Records whose agreement with the lanes is what it was. -/
theorem Booked.restate {lanes : Table Lane} {register register' : List UnitRecord} (h : Booked lanes register)
    (bookings : register'.map (·.booking) = register.map (·.booking))
    (same : ∀ b (x : Holding), stateIn register' b = x.record ↔ stateIn register b = x.record) :
    Booked lanes register' := by
  refine ⟨bookings ▸ h.records, h.bookings, fun b x mem => (same b x).mpr (h.stands b x mem), fun b x st here rec => ?_⟩
  have before := (same b x).mp (here.trans rec.symm)
  exact h.placed b x st (before.trans rec) rec

theorem State.Planned.shutOut {s : State} (planned : s.Planned) (c : PlanClock) :
    ({ s.shutOutAll with clock := c } : State).Planned := by
  rw [State.shutOutAll_eq]
  obtain ⟨booked, waits, berthed, ledger⟩ := planned
  have state (b : Booking) : stateIn s.shutOutAll.register b =
      if b ∈ s.waiting.map (·.booking) then (stateIn s.register b).map fun _ => .excluded
      else stateIn s.register b := stateIn_shutOut s.waiting s b
  refine ⟨booked.restate (bookings_shutOut s.waiting s) fun b x => ?_, ⟨by simp, fun b => ?_⟩, { berthed with },
    { ledger with }⟩
  · rw [state]
    split
    · rename_i mem
      rw [(waits.waits b).mpr mem]
      cases x <;> simp [Holding.record]
    · rfl
  · rw [state]
    split
    · cases stateIn s.register b <;> simp
    · rename_i out
      simpa using fun w => out ((waits.waits b).mp w)

/-! Requests that change one record -/

theorem State.Planned.withRegister {s : State} (planned : s.Planned) {reg : List UnitRecord} {ws : List Waiting}
    (booked : Booked s.lanes reg) (waits : Waits ws reg) :
    ({ s with register := reg, waiting := ws } : State).Planned :=
  ⟨booked, waits, { planned.berthed with }, { planned.ledger with }⟩

theorem findInLane_none {n : Nat} {l : Lane} {b : Booking} (h : findInLane n l b = none) :
    ∀ e ∈ l.entries, e.booking ≠ b := by
  intro e he
  simp only [findInLane, Option.map_eq_none_iff, List.find?_eq_none, decide_eq_true_eq] at h
  obtain ⟨i, hi, rfl⟩ := List.mem_iff_getElem.mp he
  exact h (l.entries[i], i + 1) (List.mk_mem_zipIdx_iff_le_and_getElem?_sub.mpr (by simp [hi]))

/-- A booking that is in no lane's list and has no record in a plan state stands nowhere. -/
theorem State.Planned.nowhere {s : State} (planned : s.Planned) {b : Booking} (free : s.findEntry b = none)
    (old : ∀ r, s.findRecord b = some r → r.state = .announced ∨ r.state = .excluded) (x : Holding) :
    (b, x) ∉ holdings s.lanes := by
  intro mem
  have agrees := planned.booked.stands b x mem
  cases rec : s.findRecord b with
  | some r =>
    have here : stateIn s.register b = some r.state := by rw [State.stateIn_eq, rec]; rfl
    rcases old r rec with state | state <;>
      exact planned.booked.nowhere here (by simp [state]) (by simp [state]) x mem
  | none =>
    rw [State.stateIn_eq, rec] at agrees
    obtain ⟨p, hp, held⟩ := mem_holdings.mp mem
    rcases Lane.mem_holds.mp held with ⟨e, he, booking, -⟩ | ⟨c, -, -, rfl⟩
    · exact findInLane_none (List.findSome?_eq_none_iff.mp free p hp) e he booking
    · simp [Holding.record] at agrees

section
variable {s : State} {b : Booking} {st : UnitState}

theorem State.record_state {r : UnitRecord} (h : s.findRecord b = some r) : stateIn s.register b = some r.state := by
  rw [State.stateIn_eq, h]
  rfl

/-- A record that is neither RESERVED nor CHECK nor WAITING takes another such state. -/
theorem State.Planned.setState (planned : s.Planned) (here : stateIn s.register b = some st)
    (free : st ≠ .reserved ∧ st ≠ .check ∧ st ≠ .waiting) {st' : UnitState}
    (free' : st' ≠ .reserved ∧ st' ≠ .check ∧ st' ≠ .waiting) : (s.setUnitState b st').Planned := by
  have stay := OthersStay.setUnitState s b st'
  have after : stateIn (s.setUnitState b st').register b = some st' := by
    simp [State.stateIn_setUnitState, here]
  exact planned.withRegister
    (planned.booked.record (planned.booked.nowhere here free.1 free.2.1) stay (ne_of_state after (by simpa using free'.1))
      (ne_of_state after (by simpa using free'.2.1)))
    (planned.waits.record stay (ne_of_state here (by simpa using free.2.2)) (ne_of_state after (by simpa using free'.2.2)))

theorem State.Planned.removeRecord (planned : s.Planned) (here : stateIn s.register b = some st)
    (free : st ≠ .reserved ∧ st ≠ .check ∧ st ≠ .waiting) : (s.removeRecord b).Planned := by
  have stay := OthersStay.removeRecord s b
  have after : stateIn (s.removeRecord b).register b = none := by simp [State.stateIn_removeRecord]
  exact planned.withRegister
    (planned.booked.record (planned.booked.nowhere here free.1 free.2.1) stay (ne_of_state after (by simp))
      (ne_of_state after (by simp)))
    (planned.waits.record stay (ne_of_state here (by simpa using free.2.2)) (ne_of_state after (by simp)))

/-- A waiting unit leaves the list, its record taking a state that is neither RESERVED nor CHECK nor WAITING
or leaving the register. -/
theorem State.Planned.leaveList (planned : s.Planned) (listed : b ∈ s.waiting.map (·.booking))
    {reg : List UnitRecord} (stay : OthersStay s.register reg b) (hr : stateIn reg b ≠ some .reserved)
    (hc : stateIn reg b ≠ some .check) (hw : stateIn reg b ≠ some .waiting) :
    ({ s with register := reg, waiting := (s.dropWaiting b).waiting } : State).Planned :=
  planned.withRegister
    (planned.booked.record (planned.booked.nowhere ((planned.waits.waits b).mpr listed) (by simp) (by simp)) stay
      hr hc)
    (planned.waits.drop stay hw)

theorem State.Planned.leaveListFor (planned : s.Planned) (listed : b ∈ s.waiting.map (·.booking)) {st' : UnitState}
    (free : st' ≠ .reserved ∧ st' ≠ .check ∧ st' ≠ .waiting) : ((s.dropWaiting b).setUnitState b st').Planned := by
  have after : stateIn (s.setUnitState b st').register b = some st' := by
    simp [State.stateIn_setUnitState, (planned.waits.waits b).mpr listed]
  exact planned.leaveList listed (.setUnitState s b st') (ne_of_state after (by simpa using free.1))
    (ne_of_state after (by simpa using free.2.1)) (ne_of_state after (by simpa using free.2.2))

theorem State.Planned.announce (planned : s.Planned) {u : UnitRecord} (state : u.state = .announced)
    (free : s.findEntry u.booking = none)
    (old : ∀ r, s.findRecord u.booking = some r → r.state = .announced ∨ r.state = .excluded) :
    (s.putRecord u).Planned := by
  have stay := OthersStay.putRecord s u
  have after : stateIn (s.putRecord u).register u.booking = some .announced := by
    simp [State.stateIn_putRecord, state]
  have before : stateIn s.register u.booking ≠ some .waiting := by
    rw [State.stateIn_eq]
    intro waiting
    obtain ⟨r, rec, state⟩ := Option.map_eq_some_iff.mp waiting
    rcases old r rec with h | h <;> simp [h] at state
  rw [State.putRecord_eq]
  exact planned.withRegister
    (planned.booked.record (planned.nowhere free old) stay (ne_of_state after (by simp)) (ne_of_state after (by simp)))
    (planned.waits.record stay before (ne_of_state after (by simp)))

theorem State.Planned.wait (planned : s.Planned) {w : Waiting}
    (here : stateIn s.register w.booking = some .announced) :
    ({ s.setUnitState w.booking .waiting with waiting := s.waiting ++ [w] } : State).Planned := by
  have stay := OthersStay.setUnitState s w.booking .waiting
  have after : stateIn (s.setUnitState w.booking .waiting).register w.booking = some .waiting := by
    simp [State.stateIn_setUnitState, here]
  exact planned.withRegister
    (planned.booked.record (planned.booked.nowhere here (by simp) (by simp)) stay (ne_of_state after (by simp))
      (ne_of_state after (by simp)))
    (planned.waits.join stay (ne_of_state here (by simp)) after)

end

/-! The pass -/

/-- What a pass needs and keeps. -/
structure State.Passing (s : State) : Prop where
  tables : s.tablesOk = true
  isSealed : s.isSealed = true
  planned : s.Planned

theorem Waits.setWaiting {s : State} (h : Waits s.waiting s.register) (w : Waiting) :
    Waits (s.setWaiting w).waiting (s.setWaiting w).register := by
  have bookings : (s.setWaiting w).waiting.map (·.booking) = s.waiting.map (·.booking) := by
    simp only [State.setWaiting, List.map_map]
    refine List.map_congr_left fun q _ => ?_
    simp only [Function.comp]
    split
    · rename_i e
      exact e.symm
    · rfl
  exact ⟨bookings ▸ h.once, fun b => by rw [bookings]; exact h.waits b⟩

theorem State.revise_planned {s : State} (planned : s.Planned) (n : Nat) : (s.onLane n Lane.revise).Planned :=
  planned.resettled (lanesResettled_modify s.lanes n _ Lane.revise_resettled)

theorem Examined.passing {s t : State} {w : Waiting} (h : Examined s w t) (hs : s.Passing)
    (listed : w.booking ∈ s.waiting.map (·.booking)) : t.Passing := by
  obtain ⟨tables, isSealed, planned⟩ := hs
  cases h with
  | skipped => exact ⟨tables, isSealed, planned⟩
  | retried rs =>
    exact ⟨tables, isSealed, planned.booked, planned.waits.setWaiting _, { planned.berthed with },
      { planned.ledger with }⟩
  | excluded => exact ⟨tables, isSealed, planned.leaveListFor listed (by simp)⟩
  | admitted row unit n l rec fits lane =>
    obtain ⟨k, lane', takes⟩ := State.evaluate_chosen_takes fits
    cases lane.symm.trans lane'
    have record := (planned.waits.waits w.booking).mpr listed
    have after : stateIn (s.setUnitState w.booking .reserved).register w.booking = some .reserved := by
      simp [State.stateIn_setUnitState, record]
    have reserved := planned.reserve (ramp := w.ramp) tables isSealed takes lane record (by simp) (by simp)
      (planned.waits.drop (.setUnitState s w.booking .reserved) (ne_of_state after (by simp)))
    refine ⟨?_, isSealed, State.revise_planned reserved n⟩
    have grows := (State.reserveLoad_grows s w.ramp w.booking unit.body (s.slotOf n l unit.body)).sameNumbers
      (State.reserveLoad_keeps ..)
    have numbers : SameNumbers s (((s.dropWaiting w.booking).reserveLoad w.ramp w.booking unit.body
        (s.slotOf n l unit.body)).onLane n Lane.revise) :=
      ⟨(Table.keys_modify ..).trans grows.lanes, grows.zones, grows.ramps, grows.sections, grows.inputs⟩
    exact numbers.tablesOk.trans tables

/-- An examination leaves the other elements in the list. -/
theorem Examined.others {s t : State} {w : Waiting} (h : Examined s w t) {b : Booking} (ne : b ≠ w.booking)
    (listed : b ∈ s.waiting.map (·.booking)) : b ∈ t.waiting.map (·.booking) := by
  have dropped : b ∈ (s.dropWaiting w.booking).waiting.map (·.booking) := by
    obtain ⟨q, hq, rfl⟩ := List.mem_map.mp listed
    exact List.mem_map_of_mem (List.mem_filter.mpr ⟨hq, by simpa using ne⟩)
  cases h with
  | skipped => exact listed
  | retried rs =>
    obtain ⟨q, hq, rfl⟩ := List.mem_map.mp listed
    refine List.mem_map.mpr ⟨q, List.mem_map.mpr ⟨q, hq, ?_⟩, rfl⟩
    exact if_neg ne
  | excluded => exact dropped
  | admitted => exact dropped

theorem State.passOver_passing {ws : List Waiting} {s : State} (hs : s.Passing)
    (once : (ws.map (·.booking)).Nodup) (listed : ∀ w ∈ ws, w.booking ∈ s.waiting.map (·.booking)) :
    (s.passOver ws).1.Passing := by
  induction ws generalizing s with
  | nil => exact hs
  | cons w rest ih =>
    rw [List.map_cons, List.nodup_cons] at once
    have examined := s.passElement_examined w
    refine ih (examined.passing hs (listed w (by simp))) once.2 fun v hv => examined.others ?_ (listed v (by simp [hv]))
    intro e
    exact once.1 (e ▸ List.mem_map_of_mem hv)

theorem State.runPass_passing {s : State} (hs : s.Passing) : s.runPass.1.Passing := by
  unfold State.runPass
  split
  · exact State.passOver_passing hs hs.planned.waits.once fun w hw => List.mem_map_of_mem hw
  · exact hs

/-! Requests in PROFILE, and the seal -/

theorem State.Planned.bare {s : State} (planned : s.Planned) (unsealed : s.isSealed = false) :
    ∀ p ∈ s.lanes, p.2.occupied = false :=
  planned.berthed.bare.resolve_left (by simp [unsealed])

theorem State.Planned.free {s : State} (planned : s.Planned) (bare : ∀ p ∈ s.lanes, p.2.occupied = false)
    (b : Booking) : stateIn s.register b ≠ some .reserved ∧ stateIn s.register b ≠ some .check := by
  have none_ := holdings_vacant bare
  refine ⟨fun here => ?_, fun here => ?_⟩
  · have := planned.booked.placed b .reserved _ here rfl
    simp [none_] at this
  · have := planned.booked.placed b .check _ here rfl
    simp [none_] at this

/-- In a plan without units every change of the records that are stored keeps the laws. -/
theorem State.Planned.redefine {s t : State} (planned : s.Planned) (bare : ∀ p ∈ s.lanes, p.2.occupied = false)
    (register : t.register = s.register) (waiting : t.waiting = s.waiting) (vacant : t.Vacant) : t.Planned :=
  vacant.planned (register ▸ planned.booked.records) (register ▸ planned.free bare)
    (register ▸ waiting ▸ planned.waits)

theorem State.Vacant.sealed {s : State} : (sealed s).Vacant := by
  refine ⟨fun p hp => ?_, rfl, rfl, rfl, rfl, fun z hz => ?_, rfl, fun r hr => ?_⟩
  · obtain ⟨q, -, rfl⟩ := List.mem_map.mp hp
    have fresh : (startLane s q.2).entries = [] ∧ (startLane s q.2).check = none ∧ (startLane s q.2).mass = 0 := by
      unfold startLane
      dsimp only
      split
      · exact ⟨rfl, rfl, rfl⟩
      · split <;> exact ⟨rfl, rfl, rfl⟩
    exact ⟨Lane.occupied_false.mpr ⟨fresh.1, fresh.2.1⟩, fresh.2.2⟩
  · obtain ⟨q, -, rfl⟩ := List.mem_map.mp hz
    exact ⟨rfl, rfl⟩
  · obtain ⟨q, -, rfl⟩ := List.mem_map.mp hr
    rfl

theorem State.clearPlan_register (s : State) : s.clearPlan.register =
    s.register.map fun r => { r with state := if r.state = .waiting then .announced else r.state } := by
  refine List.map_congr_left fun r _ => ?_
  split <;> rfl

theorem State.eraseProfile_vacant {s : State} (vacant : s.Vacant) : s.eraseProfile.Vacant :=
  ⟨fun _ h => absurd h List.not_mem_nil, vacant.movements, vacant.tc, vacant.plus, vacant.minus,
    fun _ h => absurd h List.not_mem_nil, rfl, fun _ h => absurd h List.not_mem_nil⟩

theorem State.clearPlan_vacant {s : State} (vacant : s.Vacant) : s.clearPlan.Vacant :=
  { State.eraseProfile_vacant vacant with }

theorem State.Planned.clear {s : State} (planned : s.Planned) (vacant : s.Vacant) : s.clearPlan.Planned := by
  have bare : ∀ p ∈ s.lanes, p.2.occupied = false := fun p hp => (vacant.lanes p hp).1
  have state (b : Booking) : stateIn s.clearPlan.register b =
      (stateIn s.register b).map fun st => if st = .waiting then .announced else st := by
    rw [State.clearPlan_register]
    exact stateIn_mapState _ (fun st => if st = .waiting then .announced else st) b
  refine (State.clearPlan_vacant vacant).planned ?_ (fun b => ?_) ⟨by simp [State.clearPlan], fun b => ?_⟩
  · rw [State.clearPlan_register, bookings_mapState _ fun st => if st = .waiting then .announced else st]
    exact planned.booked.records
  · obtain ⟨hr, hc⟩ := planned.free bare b
    rw [state]
    cases h : stateIn s.register b with
    | none => simp
    | some st => cases st <;> simp_all
  · rw [state]
    cases h : stateIn s.register b with
    | none => simp [State.clearPlan]
    | some st => cases st <;> simp [State.clearPlan]

/-! Every change -/

theorem Change.planned {s t : State} (h : Change s t) (wf : s.tablesOk = true) (moded : s.Moded)
    (planned : s.Planned) : t.Planned := by
  have same (u : State) (register : u.register = s.register) (waiting : u.waiting = s.waiting)
      (berthed : u.Berthed) (ledger : u.Ledger) (lanes : u.lanes = s.lanes) : u.Planned :=
    ⟨by rw [register, lanes]; exact planned.booked, by rw [register, waiting]; exact planned.waits, berthed, ledger⟩
  have running (hm : s.mode = .run) : s.isSealed = true := moded.sealed (State.planMode_of_run hm)
  have unsealed (hm : s.mode = .profile) := planned.bare (moded.unsealed hm)
  have idle (hm : s.mode = .profile) : s.movements = [] ∧ s.waiting = [] :=
    moded.run.resolve_left (by simp [State.work_of_profile hm])
  have vacant (hm : s.mode = .profile) := planned.vacant (unsealed hm) (idle hm).1
  cases h with
  | defLanes u hm _ new => 
    obtain ⟨lanes, movements, tc, plus, minus, zones, pool, ramps⟩ := vacant hm
    refine planned.redefine (unsealed hm) rfl rfl ⟨fun p hp => ?_, movements, tc, plus, minus, zones, pool, ramps⟩
    rcases new p hp with old | ⟨profile, new⟩
    · exact lanes p old
    · rw [new]
      exact ⟨rfl, rfl⟩
  | defZones u hm _ new =>
    obtain ⟨lanes, movements, tc, plus, minus, zones, pool, ramps⟩ := vacant hm
    exact planned.redefine (unsealed hm) rfl rfl ⟨lanes, movements, tc, plus, minus,
      fun z hz => (new z hz).elim (zones z) id, pool, ramps⟩
  | defRamps u hm _ new =>
    obtain ⟨lanes, movements, tc, plus, minus, zones, pool, ramps⟩ := vacant hm
    refine planned.redefine (unsealed hm) rfl rfl ⟨lanes, movements, tc, plus, minus, zones, pool, fun r hr => ?_⟩
    rcases new r hr with old | ⟨reach, new⟩
    · exact ramps r old
    · rw [new]
      rfl
  | defSections u hm => exact planned.redefine (unsealed hm) rfl rfl { vacant hm with }
  | defShip gap seg hm => exact planned.redefine (unsealed hm) rfl rfl { vacant hm with }
  | sealPlan hm => exact planned.redefine (unsealed hm) rfl (idle hm).2.symm .sealed
  | erase hm => exact planned.redefine (unsealed hm) rfl rfl (State.eraseProfile_vacant (vacant hm))
  | clear hm bare idle => exact planned.clear (planned.vacant bare idle)
  | account a same range =>
    obtain ⟨tc, plus, minus, confirmed, pending, pool, ramps⟩ := planned.ledger
    exact ⟨planned.booked, planned.waits, { planned.berthed with },
      ⟨same.1.trans tc, same.2.1.trans plus, same.2.2.trans minus, confirmed, pending, pool, ramps⟩⟩
  | shutOut hm => exact planned.shutOut _
  | ramp r f h => exact planned.onRamp r f h
  | lanes u h => exact planned.resettled h
  | sect n f h =>
    refine planned.withSections fun _ m d get => ?_
    rw [Table.get_modify] at get
    split at get
    · rename_i e
      obtain ⟨c, was, rfl⟩ := Option.map_eq_some_iff.mp get
      subst e
      exact ((h c was).holds).imp id fun free => ⟨c, was, free⟩
    · by_cases holds : d.holds = true
      · exact .inl holds
      · exact .inr ⟨d, get, .inl (by simpa using holds)⟩
  | sects f h =>
    refine planned.withSections fun _ m d get => ?_
    rw [Table.get_mapAll] at get
    obtain ⟨c, was, rfl⟩ := Option.map_eq_some_iff.mp get
    exact ((h c).holds).imp id fun free => ⟨c, was, .inl (free.resolve_right id)⟩
  | aged => exact planned.aged
  | announce u st free old => exact planned.announce st free old
  | reannounce b h =>
    obtain ⟨r, rec, state⟩ := h
    exact planned.setState (State.record_state rec) (by simp [state]) (by simp)
  | remove b h =>
    obtain ⟨r, rec, state⟩ := h
    exact planned.removeRecord (State.record_state rec) (by rcases state with h | h <;> simp [h])
  | withdraw b h =>
    obtain ⟨r, rec, state⟩ := h
    have listed := (planned.waits.waits b).mp ((State.record_state rec).trans (congrArg some state))
    have after : stateIn (s.removeRecord b).register b = none := by simp [State.stateIn_removeRecord]
    exact planned.leaveList listed (.removeRecord s b) (ne_of_state after (by simp)) (ne_of_state after (by simp))
      (ne_of_state after (by simp))
  | sendBack b h =>
    obtain ⟨w, hw, rfl⟩ := h
    exact planned.leaveListFor (List.mem_map_of_mem hw) (by simp)
  | wait w _ _ rec =>
    obtain ⟨r, rec, state⟩ := rec
    exact planned.wait ((State.record_state rec).trans (congrArg some state))
  | reserve ramp row unit n l hm rec st fits lane =>
    obtain ⟨k, lane', takes⟩ := State.evaluate_chosen_takes fits
    cases lane.symm.trans lane'
    have record := (State.record_state rec).trans (congrArg some st)
    have after : stateIn (s.setUnitState unit.booking .reserved).register unit.booking = some .reserved := by
      simp [State.stateIn_setUnitState, record]
    exact planned.reserve wf (running hm) takes lane record (by simp) (by simp)
      (planned.waits.record (.setUnitState s _ _) (ne_of_state record (by simp)) (ne_of_state after (by simp)))
  | pass h =>
    have running : s.isSealed = true := running (by
      simp only [State.passAllowed, Bool.and_eq_true, decide_eq_true_eq] at h
      exact h.1)
    exact (State.runPass_passing ⟨wf, running, planned⟩).planned
  | stow r hr hk => exact planned.stow wf hr hk
  | backOut r hr hk => exact planned.backOut wf hr hk
  | offload r hr hk => exact planned.offload wf hr hk
  | keep r hr hk => exact planned.keep wf hr hk
  | release ramp row b f hm h => exact planned.release wf (running hm) h
  | lapseLoad r hr hk => exact planned.lapseLoad wf hr hk
  | lapseDischarge r hr hk => exact planned.lapseDischarge wf hr hk
  | stowLate n l c u lane check unit fits => exact planned.stowLate wf lane check unit fits
  | offloadLate b f c found stowed check kind =>
    obtain ⟨mem, -⟩ := State.findEntry_some found
    exact planned.offloadLate wf ((Table.mem_iff_get ((State.tablesOk_iff s).mp wf).1 _ _).mp mem) check kind
  | dropLoad n l c u lane check unit => exact planned.dropLoad wf lane check unit
  | dropDischarge n l c lane check kind => exact planned.dropDischarge wf lane check kind
  | _ => exact same _ rfl rfl { planned.berthed with } { planned.ledger with } rfl

end Sys2Proof.Machine

/-! The image write, the start and the loss of supply keep the laws of lanes, account, register and Waiting
List; O16 to O19. -/

namespace Sys2Proof.Machine

/-! The image write -/

theorem SameStretches.stretched (zones : Table Zone) : SameStretches zones (zones.mapAll Zone.stretch) := by
  simp only [SameStretches, Table.mapAll, List.map_map]
  rfl

theorem SameStretches.shapeOk {a b : Table Zone} (h : SameStretches a b) (l : Lane) :
    l.shapeOk b = l.shapeOk a := by
  have claim (e : Entry) (sign : Int) : e.claim b l sign = e.claim a l sign := by
    simp only [Entry.claim, h.zoneOf]
  unfold Lane.shapeOk
  simp only [h.zoneOf, claim]

/-- What `Lane.undisturbed` says, by the section the lane relates to. -/
theorem Lane.undisturbed_iff {sections : Table Sect} {l : Lane} : l.undisturbed sections = true ↔
    ∀ k c, l.profile.relation.section? = some k → sections.get k = some c →
      c.holds = true ∨ l.inService = false ∧ l.check = none := by
  unfold Lane.undisturbed
  cases l.profile.relation.section? with
  | none => simp
  | some k =>
    cases get : sections.get k with
    | none =>
      simp only [Option.bind_some, get, true_iff]
      rintro _ c ⟨⟩ found
      simp [get] at found
    | some c =>
      simp only [Option.bind_some, get, Bool.or_eq_true, Bool.and_eq_true, Bool.not_eq_true', Option.isNone_iff_eq_none]
      refine ⟨?_, fun h => h k c rfl get⟩
      rintro h _ d ⟨⟩ found
      exact Option.some.inj (get.symm.trans found) ▸ h

theorem State.Planned.image {s : State} (planned : s.Planned) : s.image.Planned := by
  obtain ⟨booked, -, ⟨berth, calm, packed, -, -, bare⟩, -⟩ := planned
  refine ⟨booked, fun p hp => ?_, fun p hp => ?_, packed, fun r hr => ?_, bare⟩
  · exact ((SameStretches.stretched s.zones).shapeOk p.2).trans (Berth.iff.mp (berth p hp)).1
  · refine Lane.undisturbed_iff.mpr fun k c relation get => ?_
    change (s.sections.mapAll fun c => { c with origin := none, timer := 0 }).get k = some c at get
    rw [Table.get_mapAll] at get
    obtain ⟨d, found, rfl⟩ := Option.map_eq_some_iff.mp get
    exact Lane.undisturbed_iff.mp (calm p hp) k d relation found
  · obtain ⟨q, -, rfl⟩ := List.mem_map.mp hr
    rfl

/-! Empty stores -/

theorem State.Planned.blank {s : State} (lanes : s.lanes = []) (zones : s.zones = []) (ramps : s.ramps = [])
    (movements : s.movements = []) (tc : s.account.tc = 0) (plus : s.account.pPlus = 0)
    (minus : s.account.pMinus = 0) (pool : s.poolInUse = 0) (register : s.register = [])
    (waiting : s.waiting = []) : s.Planned :=
  State.Vacant.planned
    ⟨by simp [lanes], movements, tc, plus, minus, by simp [zones], pool, by simp [ramps]⟩ (by simp [register])
    (by simp [register, stateIn]) ⟨by simp [waiting], by simp [register, waiting, stateIn]⟩

theorem Image.Planned.blank : State.blank.store.image.Planned :=
  ⟨⟨List.nodup_nil, List.nodup_nil, fun _ _ h => absurd h List.not_mem_nil, fun _ _ _ h => by cases h⟩,
    fun _ h => absurd h List.not_mem_nil, fun _ h => absurd h List.not_mem_nil,
    fun _ h => absurd h List.not_mem_nil, fun _ h => absurd h List.not_mem_nil,
    .inr fun _ h => absurd h List.not_mem_nil⟩

/-! The lanes after a warm start (R38, R122) -/

/-- A RESERVED entry's booking stands in a check record afterwards (R54). -/
def Holding.warm : Holding → Holding
  | .reserved => .check
  | .aboard => .aboard
  | .check => .check

/-- What a lane keeps through a warm start, and how it stands afterwards: without reservation. -/
structure Lane.Warmed (zones : Table Zone) (gap : Nat) (l l' : Lane) : Prop where
  profile : l'.profile = l.profile
  berth : Berth zones l' []
  mass : l'.mass = l'.massAboard
  holds : l'.holds = l.holds.map fun p => (p.1, p.2.warm)
  packed : l.packed gap = true → l'.packed gap = true
  places : l'.places = l.places
  idle : l.inService = false ∧ l.check = none → l'.check = none
  stowed : ∀ e ∈ l'.entries, e.state = .stowed

theorem Entry.holding_warm {e : Entry} (h : e.state ≠ .reserved) : e.holding.warm = e.holding := by
  simp [Entry.holding, h, Holding.warm]

theorem Entry.holding_stowed {e : Entry} (h : e.state ≠ .reserved) : e.holding = .aboard := if_neg h

theorem Entry.holding_reserved {e : Entry} (h : e.state = .reserved) : e.holding = .reserved := if_pos h

theorem holds_warm {es : List Entry} (h : ∀ e ∈ es, e.state ≠ .reserved) :
    (es.map fun e => (e.booking, e.holding)).map (fun p => (p.1, p.2.warm)) =
      es.map fun e => (e.booking, e.holding) := by
  rw [List.map_map]
  exact List.map_congr_left fun e he => by simp [Entry.holding_warm (h e he)]

theorem massOf_all_stowed {es : List Entry} (h : ∀ e ∈ es, e.state = .stowed) :
    massOf es = (es.map fun e => e.unit.mass).sum := by
  unfold massOf
  rw [List.filter_eq_self.mpr fun e he => by simp [h e he]]

theorem warmLane_stowed {zones : Table Zone} {l : Lane} (k : Nat) (h : ∀ e ∈ l.entries, e.state = .stowed) :
    warmLane zones k l = { l with mass := (l.entries.map fun e => e.unit.mass).sum } := by
  unfold warmLane
  obtain ⟨nil, last⟩ | ⟨base, e, entries, last, -⟩ := l.getLast_cases
  · simp [nil]
  · have : e.state = .stowed := h e (by simp [entries])
    simp [last, this]

theorem warmLane_reserved {zones : Table Zone} {l : Lane} (k : Nat) {base : List Entry} {e : Entry}
    (entries : l.entries = base ++ [e]) (h : e.state = .reserved) :
    warmLane zones k l = { l with
      entries := base
      check := some (warmCheck zones k l e (e.unit.mass * l.profile.arm) (.load e.unit))
      mass := (base.map fun e => e.unit.mass).sum } := by
  simp [warmLane, entries, h]

theorem warmLane_leaving {zones : Table Zone} {l : Lane} (k : Nat) {base : List Entry} {e : Entry}
    (entries : l.entries = base ++ [e]) (h : e.state = .leaving) :
    warmLane zones k l = { l with
      entries := base ++ [{ e with state := .stowed }]
      check := some (warmCheck zones k l e (-(e.unit.mass * l.profile.arm)) .discharge)
      mass := ((base ++ [e]).map fun e => e.unit.mass).sum } := by
  simp [warmLane, entries, h, setLast_concat]

/-- A lane whose list and check record agree stands in one of three ways: all STOWED, or its last entry on its
way, without a check record. -/
theorem Lane.shapeOk_cases {zones : Table Zone} {l : Lane} (h : l.shapeOk zones = true) :
    (∀ e ∈ l.entries, e.state = .stowed) ∨
      ∃ base e, l.entries = base ++ [e] ∧ (∀ x ∈ base, x.state = .stowed) ∧ l.check = none ∧
        (e.state = .reserved ∨ e.state = .leaving) := by
  cases check : l.check with
  | some c => exact .inl (Lane.shapeOk_stowed h check)
  | none =>
    have base := (Lane.shapeOk_none check).mp h
    obtain ⟨nil, -⟩ | ⟨list, e, entries, last, dropLast⟩ := l.getLast_cases
    · simp [nil]
    · cases state : e.state with
      | stowed =>
        exact .inl (stowed_of_last base fun x hx => by
          obtain rfl := Option.some.inj (last.symm.trans hx)
          exact state)
      | reserved => exact .inr ⟨list, e, entries, dropLast ▸ base, rfl, .inl state⟩
      | leaving => exact .inr ⟨list, e, entries, dropLast ▸ base, rfl, .inr state⟩

/-- A lane of STOWED entries that agrees with its check record. -/
theorem Berth.of_stowed {zones : Table Zone} {l : Lane} (shape : l.shapeOk zones = true)
    (stowed : ∀ e ∈ l.entries, e.state = .stowed) : Berth zones l [] := by
  cases check : l.check with
  | none => exact .idle stowed check
  | some c =>
    cases content : c.content with
    | load u =>
      obtain ⟨stowed, delta, zone⟩ := (Lane.shapeOk_load check content).mp shape
      exact .loadCheck c u stowed check content delta zone
    | discharge =>
      obtain ⟨stowed, e, last, claim⟩ := (Lane.shapeOk_discharge check content).mp shape
      obtain ⟨base, entries⟩ := List.getLast?_eq_some_iff.mp last
      exact .dischargeCheck base e c entries (fun x mem => stowed x (by simp [entries, mem]))
        (stowed e (by simp [entries])) check content claim

section
variable {zones : Table Zone} {gap : Nat} {l l' : Lane} {base : List Entry} {e : Entry} {c : CheckRecord}

/-- A reserved entry leaves the list for a LOAD check record that claims the same. -/
theorem Lane.Warmed.of_reserved (entries : l.entries = base ++ [e]) (stowed : ∀ x ∈ base, x.state = .stowed)
    (check : l.check = none) (state : e.state = .reserved) (profile : l'.profile = l.profile)
    (entries' : l'.entries = base) (check' : l'.check = some c) (content : c.content = .load e.unit)
    (claim : c.claim = e.claim zones l' 1) (mass : l'.mass = massOf base) : l.Warmed zones gap l' := by
  have none_ := Lane.loadCheck_none check
  have some_ := Lane.loadCheck_load check' content
  simp only [CheckRecord.claim, Entry.claim, Claim.mk.injEq, Int.one_mul] at claim
  obtain ⟨booking, delta, zone, offset⟩ := claim
  refine ⟨profile, .loadCheck c e.unit (entries' ▸ stowed) check' content delta (offset ▸ zone),
    by rw [mass, Lane.massAboard_eq, entries'], ?_, fun packed => ?_, ?_, fun idle => ?_, entries' ▸ stowed⟩
  · rw [Lane.holds, Lane.holds, some_, none_, entries, entries', List.map_append, List.map_append, List.map_append,
      holds_warm fun x hx => by simp [stowed x hx]]
    simp [Entry.holding_reserved state, Holding.warm, booking]
  · obtain ⟨offsets, places, fits, -⟩ := Lane.packed_iff.mp packed
    rw [entries, offsetsOk_concat] at offsets
    simp only [Lane.places, entries, none_] at places
    refine Lane.packed_iff.mpr ⟨entries' ▸ offsets.1, ?_, ?_, ?_⟩
    · simpa [Lane.places, entries', some_] using places
    · rw [entries', profile]
      exact fun x hx => fits x (by simp [entries, hx])
    · rw [some_]
      rintro _ ⟨⟩
      simpa [entries', offset] using offsets.2
  · simp [Lane.places, some_, none_, entries, entries']
  · have := Lane.inService_false.mp idle.1 e (by simp [entries])
    simp [state] at this

/-- A leaving entry is STOWED again, beside a DISCHARGE check record that claims the same. -/
theorem Lane.Warmed.of_leaving (entries : l.entries = base ++ [e]) (stowed : ∀ x ∈ base, x.state = .stowed)
    (check : l.check = none) (state : e.state = .leaving) (profile : l'.profile = l.profile)
    (entries' : l'.entries = base ++ [{ e with state := .stowed }]) (check' : l'.check = some c)
    (content : c.content = .discharge) (claim : c.claim = e.claim zones l' (-1))
    (mass : l'.mass = massOf (base ++ [e])) : l.Warmed zones gap l' := by
  have none_ := Lane.loadCheck_none check
  have none' := Lane.loadCheck_discharge check' content
  have all : ∀ x ∈ l'.entries, x.state = .stowed := by
    simpa [entries', or_imp, forall_and] using stowed
  refine ⟨profile, .dischargeCheck base { e with state := .stowed } c entries' stowed rfl check' content claim,
    by rw [mass, Lane.massAboard_eq, entries', massOf_concat, massOf_concat]; simp [state], ?_, fun packed => ?_, ?_,
    fun idle => ?_, all⟩
  · rw [Lane.holds, Lane.holds, none', none_, entries, entries', List.map_append, List.map_append, List.map_append,
      List.map_append, holds_warm fun x hx => by simp [stowed x hx]]
    simp [Entry.holding_stowed, state, Holding.warm]
  · obtain ⟨offsets, places, fits, -⟩ := Lane.packed_iff.mp packed
    rw [entries, offsetsOk_concat] at offsets
    simp only [Lane.places, entries, none_] at places
    refine Lane.packed_iff.mpr ⟨entries' ▸ (offsetsOk_concat ..).mpr offsets, ?_, ?_, by simp [none']⟩
    · simpa [Lane.places, entries', none'] using places
    · simpa [entries, entries', profile, or_imp, forall_and] using fits
  · simp [Lane.places, none', none_, entries, entries']
  · have := Lane.inService_false.mp idle.1 e (by simp [entries])
    simp [state] at this

theorem warmLane_warmed (k : Nat) (shape : l.shapeOk zones = true) : l.Warmed zones gap (warmLane zones k l) := by
  obtain stowed | ⟨base, e, entries, stowed, check, state | state⟩ := Lane.shapeOk_cases shape
  · rw [warmLane_stowed k stowed]
    have holds : l.holds.map (fun p => (p.1, p.2.warm)) = l.holds := by
      rw [Lane.holds, List.map_append, holds_warm fun e he => by simp [stowed e he], List.map_map]
      rfl
    exact ⟨rfl, Berth.of_stowed (l := { l with mass := _ }) shape stowed, (massOf_all_stowed stowed).symm,
      holds.symm, id, rfl, fun h => h.2, stowed⟩
  · refine .of_reserved entries stowed check state ?_ ?_ (by rw [warmLane_reserved k entries state]) rfl ?_ ?_
    all_goals rw [warmLane_reserved k entries state]
    · simp [CheckRecord.claim, warmCheck, Entry.claim, Lane.deltaOf, Lane.zoneOf]
    · exact (massOf_all_stowed stowed).symm
  · refine .of_leaving entries stowed check state ?_ ?_ (by rw [warmLane_leaving k entries state]) rfl ?_ ?_
    all_goals rw [warmLane_leaving k entries state]
    · simp [CheckRecord.claim, warmCheck, Entry.claim, Lane.deltaOf, Lane.zoneOf]
    · rw [massOf_concat, massOf_all_stowed stowed]
      simp [state]

end

/-! The register after a warm start (R54) -/

def UnitState.warm : UnitState → UnitState
  | .reserved => .check
  | .waiting => .announced
  | .announced => .announced
  | .check => .check
  | .excluded => .excluded

theorem warmRecord_eq (r : UnitRecord) : warmRecord r = { r with state := r.state.warm } := by
  obtain ⟨booking, fields, flag, state⟩ := r
  cases state <;> rfl

theorem stateIn_warm (register : List UnitRecord) (b : Booking) :
    stateIn (register.map warmRecord) b = (stateIn register b).map UnitState.warm := by
  rw [funext warmRecord_eq]
  exact stateIn_mapState register UnitState.warm b

theorem bookings_warm (register : List UnitRecord) :
    (register.map warmRecord).map (·.booking) = register.map (·.booking) := by
  rw [funext warmRecord_eq]
  exact bookings_mapState register UnitState.warm

theorem Holding.record_warm (x : Holding) : x.warm.record = x.record.map UnitState.warm := by
  cases x <;> rfl

theorem Booked.warm {lanes lanes' : Table Lane} {register : List UnitRecord} (h : Booked lanes register)
    (holds : holdings lanes' = (holdings lanes).map fun p => (p.1, p.2.warm)) :
    Booked lanes' (register.map warmRecord) := by
  refine ⟨bookings_warm register ▸ h.records, ?_, fun b x mem => ?_, fun b x st here rec => ?_⟩
  · rw [holds, List.map_map]
    exact h.bookings
  · rw [holds] at mem
    obtain ⟨⟨b, x⟩, before, ⟨⟩⟩ := List.mem_map.mp mem
    rw [stateIn_warm, h.stands b x before, Holding.record_warm]
  · rw [stateIn_warm] at here
    obtain ⟨old, before, rfl⟩ := Option.map_eq_some_iff.mp here
    rw [holds]
    have stood (y : Holding) (hy : y.record = some old) : (b, y) ∈ holdings lanes := h.placed b y old before hy
    cases x with
    | aboard => cases rec
    | reserved => cases old <;> simp [Holding.record, UnitState.warm] at rec
    | check =>
      cases old with
      | reserved => exact List.mem_map.mpr ⟨_, stood .reserved rfl, rfl⟩
      | check => exact List.mem_map.mpr ⟨_, stood .check rfl, rfl⟩
      | announced | waiting | excluded => simp [Holding.record, UnitState.warm] at rec

/-! The plan after a warm start (R166, steps 1 and 2) -/

section
variable {s : State} {rates : BitVec 3}

theorem State.warmLoaded_mem {p : Nat × Lane} (h : p ∈ (s.warmLoaded rates).lanes) :
    ∃ l k, (p.1, l) ∈ s.store.image.lanes ∧ p.2 = warmLane s.store.image.zones k l := by
  obtain ⟨q, hq, rfl⟩ := List.mem_map.mp h
  exact ⟨q.2, _, hq, rfl⟩

theorem State.warmLoaded_stretches : SameStretches s.store.image.zones (s.warmLoaded rates).zones := by
  simp only [SameStretches, Table.mapAll]
  change List.map _ (List.map _ s.store.image.zones) = _
  rw [List.map_map]
  rfl

theorem holdings_mapLanes {lanes : Table Lane} {g : Nat × Lane → Nat × Lane} {f : Booking × Holding → Booking × Holding}
    (h : ∀ p ∈ lanes, (g p).2.holds = p.2.holds.map f) : holdings (lanes.map g) = (holdings lanes).map f := by
  induction lanes with
  | nil => rfl
  | cons p rest ih =>
    rw [List.forall_mem_cons] at h
    simp only [holdings, List.map_cons, List.flatMap_cons, List.map_append] at ih ⊢
    rw [h.1, ih h.2]

theorem State.warmLoaded_planned (h : s.store.image.Planned) : (s.warmLoaded rates).Planned := by
  obtain ⟨booked, shape, calm, packed, counts, bare⟩ := h
  have warmed {l : Lane} {n : Nat} (mem : (n, l) ∈ s.store.image.lanes) (k : Nat) :=
    warmLane_warmed (gap := s.store.image.gap) k (shape (n, l) mem)
  have stretches := State.warmLoaded_stretches (s := s) (rates := rates)
  have stowed : ∀ p ∈ (s.warmLoaded rates).lanes, ∀ e ∈ p.2.entries, e.state = .stowed := by
    intro p hp
    obtain ⟨l, k, mem, e⟩ := State.warmLoaded_mem hp
    exact e ▸ (warmed mem k).stowed
  have aboard : ∀ p ∈ (s.warmLoaded rates).lanes, p.2.aboard = p.2.entries := fun p hp =>
    List.filter_eq_self.mpr fun e he => by simp [stowed p hp e he]
  have holds : holdings (s.warmLoaded rates).lanes =
      (holdings s.store.image.lanes).map fun p => (p.1, p.2.warm) :=
    holdings_mapLanes fun p hp => (warmed hp _).holds
  have free (b : Booking) : stateIn (s.warmLoaded rates).register b ≠ some .waiting := by
    change stateIn (s.store.image.register.map warmRecord) b ≠ _
    rw [stateIn_warm]
    cases stateIn s.store.image.register b with
    | none => simp
    | some st => cases st <;> simp [UnitState.warm]
  refine ⟨booked.warm holds, ⟨List.nodup_nil, fun b => ?_⟩, ⟨fun p hp => ?_, fun p hp => ?_, fun p hp => ?_,
    fun p hp => ?_, fun _ hr => absurd hr List.not_mem_nil, bare.imp id fun bare p hp => ?_⟩,
    ⟨?_, rfl, rfl, fun z hz => ?_, fun z hz => ?_, rfl, fun r hr => ?_⟩⟩
  · exact iff_of_false (free b) List.not_mem_nil
  · obtain ⟨l, k, mem, e⟩ := State.warmLoaded_mem hp
    exact stretches.berth (e ▸ (warmed mem k).berth)
  · obtain ⟨l, k, mem, e⟩ := State.warmLoaded_mem hp
    have was := Lane.undisturbed_iff.mp (calm _ mem)
    refine Lane.undisturbed_iff.mpr fun n c relation get => (was n c ?_ get).imp id fun idle => ⟨?_, ?_⟩
    · rw [e, (warmed mem k).profile] at relation
      exact relation
    · exact Lane.inService_false.mpr (stowed p hp)
    · exact e ▸ (warmed mem k).idle idle
  · obtain ⟨l, k, mem, e⟩ := State.warmLoaded_mem hp
    exact e ▸ (warmed mem k).packed (packed _ mem)
  · obtain ⟨l, k, mem, e⟩ := State.warmLoaded_mem hp
    exact e ▸ (warmed mem k).mass
  · obtain ⟨l, k, mem, e⟩ := State.warmLoaded_mem hp
    obtain ⟨entries, check⟩ := Lane.occupied_false.mp (bare _ mem)
    rw [e, warmLane_stowed k (entries ▸ fun _ h => absurd h List.not_mem_nil)]
    exact bare _ mem
  · change ((s.warmLoaded rates).lanes.map fun p => p.2.moment).sum = _
    exact congrArg List.sum (List.map_congr_left fun p hp => by rw [Lane.momentAboard, aboard p hp]; rfl)
  · obtain ⟨q, hq, rfl⟩ := List.mem_map.mp hz
    change ((s.warmLoaded rates).lanes.map fun p => p.2.massIn s.store.image.zones q.1).sum = _
    refine congrArg List.sum (List.map_congr_left fun p hp => ?_)
    rw [stretches.aboardIn, Lane.aboardIn, aboard p hp]
    rfl
  · obtain ⟨q, hq, rfl⟩ := List.mem_map.mp hz
    exact (Nat.zero_add _).symm
  · exact counts r hr

/-! The sections after a warm start (R149, R166 step 3) -/

theorem State.warmedSection_holds {s : State} {n : Nat} {c : Sect} (held : c.holds = true)
    (busy : s.pendingLanes n ≠ []) : (s.warmedSection n c).holds = true := by
  unfold State.warmedSection
  dsimp only
  split
  · simp_all [Sect.holds]
  · split
    · simp_all [Sect.holds]
    · split
      · simp [Sect.holds]
      · rfl

theorem State.reviseFrom_resettled (s1 s0 : State) :
    lanesResettled s1.lanes (s1.lanes.map (revisedLane s0 s1)) :=
  lanesResettled_map s1.lanes _ fun p _ => by
    refine ⟨revisedLane_number s0 s1 p, ?_⟩
    unfold revisedLane
    split
    · split
      · exact p.2.revise_resettled
      · exact ⟨rfl, rfl, rfl, rfl, id⟩
    · exact ⟨rfl, rfl, rfl, rfl, id⟩

theorem State.warmStart_planned (stores : s.storesOk = true) (sections : s.store.image.Sectioned)
    (h : s.store.image.Planned) : (s.warmStart rates).Planned := by
  obtain ⟨-, image⟩ := (State.storesOk_iff s).mp stores
  simp only [Image.tablesOk, Bool.and_eq_true] at image
  have loaded := State.warmLoaded_planned (rates := rates) h
  rw [State.warmStart_eq]
  refine State.Planned.resettled ?_ (State.reviseFrom_resettled ..)
  rw [State.warmSections_eq]
  refine loaded.withSections fun isSealed n d get => ?_
  have settled := State.warmStart_sections_get rates isSealed image.1.2 sections n
  rw [State.warmStart_eq] at settled
  obtain ⟨c, was, rfl⟩ := Option.map_eq_some_iff.mp (settled.symm.trans get)
  by_cases held : c.holds = true
  · by_cases busy : (s.warmLoaded rates).pendingLanes n = []
    · exact .inr ⟨c, was, .inr busy⟩
    · exact .inl (State.warmedSection_holds held busy)
  · exact .inr ⟨c, was, .inl (by simpa using held)⟩

end

/-! Every move -/

/-- What the laws of lanes, account, register and Waiting List rest on. -/
structure State.Governed (s : State) : Prop where
  settled : s.Settled
  planned : s.Planned
  image : s.store.image.Planned

theorem Move.governed {s t : State} (h : Move s t) (hs : s.Governed) : t.Governed := by
  obtain ⟨settled, planned, image⟩ := hs
  have ⟨stores, mode, sections⟩ := settled
  refine ⟨h.settled settled, ?_, ?_⟩
  · cases h with
    | change h =>
      exact h.planned ((State.storesOk_iff s).mp stores).1 ((State.modeOk_iff s).mp mode).1 planned
    | commit => exact ⟨planned.booked, planned.waits, { planned.berthed with }, { planned.ledger with }⟩
    | start strap rates =>
      refine State.started_cases strap rates (P := State.Planned) (.blank rfl rfl rfl rfl rfl rfl rfl rfl rfl rfl)
        fun _ => State.warmStart_planned stores ((State.sectionsOk_iff s).mp sections).2 image
    | loss cutOff => exact .blank rfl rfl rfl rfl rfl rfl rfl rfl rfl rfl
  · cases h with
    | change h => exact h.untouched.store ▸ image
    | commit => exact planned.image
    | start strap rates => exact State.started_store s strap rates ▸ .blank
    | loss cutOff => exact image

theorem State.governed_iff {s : State} : s.Governed ↔ s.Settled ∧
    s.waitingOk = true ∧ s.planOk = true ∧ s.listsOk = true ∧ s.bookingsOk = true := by
  rw [← State.planned_iff]
  exact ⟨fun h => ⟨h.settled, h.planned, h.image⟩, fun h => ⟨h.1, h.2.1, h.2.2⟩⟩

/-- `State.sound`, law by law. -/
theorem State.sound_iff (s : State) : s.sound = true ↔ s.Governed ∧ s.linksOk = true ∧ s.imageOk = true ∧
    s.monitor.ok = true ∧ s.boundsOk = true := by
  rw [State.governed_iff, State.Settled]
  simp only [State.sound, Bool.and_eq_true]
  constructor
  · rintro ⟨⟨⟨⟨⟨⟨⟨⟨⟨⟨stores, links⟩, image⟩, sections⟩, monitor⟩, mode⟩, bounds⟩, waiting⟩, plan⟩, lists⟩, bookings⟩
    exact ⟨⟨⟨stores, mode, sections⟩, waiting, plan, lists, bookings⟩, links, image, monitor, bounds⟩
  · rintro ⟨⟨⟨stores, mode, sections⟩, waiting, plan, lists, bookings⟩, links, image, monitor, bounds⟩
    exact ⟨⟨⟨⟨⟨⟨⟨⟨⟨⟨stores, links⟩, image⟩, sections⟩, monitor⟩, mode⟩, bounds⟩, waiting⟩, plan⟩, lists⟩, bookings⟩

theorem step_governed {s t : State} (hs : s.sound = true) (h : step s = .next t) : t.Governed :=
  step_keeps (I := State.Governed) Move.governed
    (fun _ _ h => ⟨h.settled, ⟨h.planned.booked, h.planned.waits, { h.planned.berthed with },
      { h.planned.ledger with }⟩, h.image⟩) ((State.sound_iff s).mp hs).1 h

/-- Settles O16: the laws of register, Waiting List, lanes and account are kept together by every move. -/
theorem waitingListMatchesTheRegister : Obligations.WaitingListMatchesTheRegister :=
  fun _ _ hs h => (State.governed_iff.mp (step_governed hs h)).2.1

/-- Settles O17, by the same moves. -/
theorem planMatchesTheAccount : Obligations.PlanMatchesTheAccount :=
  fun _ _ hs h => (State.governed_iff.mp (step_governed hs h)).2.2.1

/-- Settles O18, by the same moves. -/
theorem listsStayPacked : Obligations.ListsStayPacked :=
  fun _ _ hs h => (State.governed_iff.mp (step_governed hs h)).2.2.2.1

/-- Settles O19, by the same moves. -/
theorem bookingsStayUnique : Obligations.BookingsStayUnique :=
  fun _ _ hs h => (State.governed_iff.mp (step_governed hs h)).2.2.2.2

end Sys2Proof.Machine

/-! A warm start keeps the envelopes (spec/02 R38, spec/04 R77, spec/06 R122, spec/08 R149); O20. -/

namespace Sys2Proof.Machine

/-! One lane -/

/-- The check record a reservation turns into (R122). -/
def Reservation.lapsedInto (r : Reservation) (content : CheckContent) : CheckRecord where
  booking := r.booking
  ramp := r.ramp
  delta := r.delta
  zone := r.zone
  offset := r.offset
  content := content

/-- What a lane with its reservations `rs` keeps when they turn into check records. -/
structure Lane.Relieved (zones : Table Zone) (l : Lane) (rs : List Reservation) (l' : Lane) : Prop where
  profile : l'.profile = l.profile
  units : l'.units = l.units
  closed : l'.closed = l.closed
  level : l'.level = l.level
  mass : l'.massAboard = l.massAboard
  moment : l'.momentAboard = l.momentAboard
  inZone : ∀ z, l'.aboardIn zones z = l.aboardIn zones z
  dues : l'.dues [] = l.dues rs
  pending : ∀ z, l'.pendingIn z = loadMassIn z rs + l.pendingIn z
  waits : l'.check.isSome = (l.check.isSome || !rs.isEmpty)
  unreserved : rs = [] → l'.entries = l.entries ∧ l'.check = l.check
  load : ∀ r, rs = [r] → r.kind = .load → ∀ e, l.entries.getLast? = some e →
    l'.entries = l.entries.dropLast ∧ l'.check = some (r.lapsedInto (.load e.unit))
  discharge : ∀ r, rs = [r] → r.kind = .discharge →
    l'.entries = setLast l.entries .stowed ∧ l'.check = some (r.lapsedInto .discharge)

section
variable {zones : Table Zone} {l : Lane} {rs : List Reservation}

theorem Lane.Relieved.stowed (k : Nat) (stowed : ∀ e ∈ l.entries, e.state = .stowed) :
    l.Relieved zones [] (warmLane zones k l) := by
  rw [warmLane_stowed k stowed]
  exact ⟨rfl, rfl, rfl, rfl, rfl, rfl, fun _ => rfl, rfl, fun z => (Nat.zero_add _).symm, by simp,
    fun _ => ⟨rfl, rfl⟩, fun _ h => (nomatch h), fun _ h => (nomatch h)⟩

theorem Berth.relieved (h : Berth zones l rs) {k : Nat} (hk : ∀ r ∈ rs, k = r.ramp) :
    l.Relieved zones rs (warmLane zones k l) := by
  cases h with
  | idle stowed => exact .stowed k stowed
  | loadCheck c u stowed => exact .stowed k stowed
  | dischargeCheck base e c entries stowed state => 
    exact .stowed k (by simpa [entries, or_imp, forall_and] using ⟨stowed, state⟩)
  | loading base e r entries stowed state check kind mass claim =>
    obtain ⟨booking, delta, zone, offset⟩ := Reservation.claim_eq claim
    have record : warmCheck zones k l e (e.unit.mass * l.profile.arm) (.load e.unit) =
        r.lapsedInto (.load e.unit) := by
      simp [warmCheck, Reservation.lapsedInto, hk, booking, delta, zone, offset]
    rw [warmLane_reserved k entries state, record]
    refine ⟨rfl, ?_, rfl, rfl, ?_, ?_, fun z => ?_, ?_, fun z => ?_, by simp, nofun, ?_, ?_⟩
    · simp [Lane.units, entries, check, Lane.loadCheck?, Reservation.lapsedInto, CheckRecord.unit?, booking]
    · simp [Lane.massAboard_eq, entries, massOf_concat, state]
    · simp [Lane.momentAboard_eq, entries, momentOf_concat, state]
    · simp [Lane.aboardIn_eq, entries, massAt_concat, state]
    · simp [Lane.dues, check, Reservation.lapsedInto]
    · simp [loadMassIn_load kind, Lane.pendingIn, check, Lane.loadCheck?, Reservation.lapsedInto, CheckRecord.unit?,
        mass]
    · rintro _ ⟨⟩ - x last
      simp only [entries, List.getLast?_concat, Option.some.injEq] at last
      simp [entries, last]
    · rintro _ ⟨⟩ other
      simp [kind] at other
  | leaving base e r entries stowed state check kind mass claim =>
    obtain ⟨booking, delta, zone, offset⟩ := Reservation.claim_eq claim
    have record : warmCheck zones k l e (-(e.unit.mass * l.profile.arm)) .discharge =
        r.lapsedInto .discharge := by
      simp [warmCheck, Reservation.lapsedInto, hk, booking, delta, zone, offset]
    rw [warmLane_leaving k entries state, record]
    refine ⟨rfl, ?_, rfl, rfl, ?_, ?_, fun z => ?_, ?_, fun z => ?_, by simp, nofun, ?_, ?_⟩
    · simp [Lane.units, entries, check, Lane.loadCheck?, Reservation.lapsedInto, CheckRecord.unit?]
    · simp [Lane.massAboard_eq, entries, massOf_concat, state]
    · simp [Lane.momentAboard_eq, entries, momentOf_concat, state]
    · simp [Lane.aboardIn_eq, entries, massAt_concat, state]
    · simp [Lane.dues, check, Reservation.lapsedInto]
    · simp [loadMassIn_discharge kind, Lane.pendingIn, check, Lane.loadCheck?, Reservation.lapsedInto,
        CheckRecord.unit?]
    · rintro _ ⟨⟩ other
      simp [kind] at other
    · rintro _ ⟨⟩ -
      simp [entries, setLast_concat]

end

/-! All lanes -/

/-- The lanes after a warm start of the state's own image. -/
def State.relievedLanes (s : State) : Table Lane :=
  s.lanes.map fun p => (p.1, warmLane s.zones ((s.admitting.get p.1).getD 0) p.2)

section
variable {s : State}

theorem State.reservationOn_eq (s : State) (n : Nat) : s.reservationOn n = (s.reservationsOn n).head? := by
  rw [State.reservationOn, State.reservationsOn, List.head?_filter]

/-- A lane has at most one reservation, and then an entry on its way. -/
theorem Berth.reserved {zones : Table Zone} {l : Lane} {rs : List Reservation} (h : Berth zones l rs) :
    rs = [] ∨ ∃ r, rs = [r] ∧ l.inService = true := by
  cases h with
  | idle | loadCheck | dischargeCheck => exact .inl rfl
  | loading base e r entries stowed state => exact .inr ⟨r, rfl, by simp [Lane.inService, entries, state]⟩
  | leaving base e r entries stowed state => exact .inr ⟨r, rfl, by simp [Lane.inService, entries, state]⟩

theorem Table.get_of_mem_unique {α : Type} {t : Table α} {n : Nat} {a : α} (mem : (n, a) ∈ t)
    (only : ∀ b, (n, b) ∈ t → b = a) : t.get n = some a := by
  have known : (t.get n).isSome = true := (Table.get_isSome_iff t n).mpr (List.mem_map_of_mem mem)
  obtain ⟨b, get⟩ := Option.isSome_iff_exists.mp known
  rw [get, only b (Table.mem_of_get get)]

theorem State.relieved (planned : s.Planned) {n : Nat} {l : Lane} (mem : (n, l) ∈ s.lanes) :
    l.Relieved s.zones (s.reservationsOn n) (warmLane s.zones ((s.admitting.get n).getD 0) l) := by
  have berth := planned.berthed.berth (n, l) mem
  refine berth.relieved fun r hr => ?_
  obtain none_ | ⟨q, only, service⟩ := berth.reserved
  · simp [show s.reservationsOn n = [] from none_] at hr
  · obtain rfl : r = q := by simpa [show s.reservationsOn n = [q] from only] using hr
    have on : s.reservationOn n = some r := by rw [State.reservationOn_eq, only]; rfl
    have here : (n, r.ramp) ∈ s.admitting :=
      List.mem_filterMap.mpr ⟨(n, l), mem, by simp [show l.inService = true from service, on]⟩
    rw [Table.get_of_mem_unique here fun j hj => ?_]
    · rfl
    · obtain ⟨⟨m, k⟩, -, h⟩ := List.mem_filterMap.mp hj
      dsimp only at h
      split at h
      · obtain ⟨q, hq, same⟩ := Option.map_eq_some_iff.mp h
        obtain ⟨rfl, rfl⟩ := Prod.mk.inj same
        rw [on] at hq
        exact congrArg Reservation.ramp (Option.some.inj hq).symm
      · cases h

/-- Reservations counted by the lane they stand on. -/
theorem State.sum_byLane {β : Type} [AddCommMonoid β] (once : (s.lanes.map (·.1)).Nodup)
    (known : ∀ r ∈ s.movements, (s.lanes.get r.lane).isSome = true) (g : Reservation → β) :
    (s.movements.map g).sum = (s.lanes.map fun p => ((s.reservationsOn p.1).map g).sum).sum := by
  have each (ms : List Reservation) (known : ∀ r ∈ ms, r.lane ∈ s.lanes.map (·.1)) : (ms.map g).sum =
      ((s.lanes.map (·.1)).map fun n => ((ms.filter fun r => decide (r.lane = n)).map g).sum).sum := by
    induction ms with
    | nil => exact (sum_vacant fun _ _ => rfl).symm
    | cons r rest ih =>
      rw [List.forall_mem_cons] at known
      have split (n : Nat) : (((r :: rest).filter fun q => decide (q.lane = n)).map g).sum =
          (if n = r.lane then g r else 0) + ((rest.filter fun q => decide (q.lane = n)).map g).sum := by
        by_cases e : r.lane = n
        · simp [e]
        · simp [e, Ne.symm e]
      simp only [split]
      rw [List.sum_map_add, ← ih known.2, List.map_cons, List.sum_cons]
      congr 1
      have single := List.sum_map_eq_nsmul_single r.lane (fun n => if n = r.lane then g r else 0)
        (l := s.lanes.map (·.1)) fun n ne _ => if_neg ne
      rw [single, List.count_eq_one_of_mem once known.1]
      simp
  have := each s.movements fun r hr => (Table.get_isSome_iff s.lanes r.lane).mp (known r hr)
  rw [this, List.map_map]
  rfl

theorem sum_filterMap_toList {α β γ : Type} [AddMonoid γ] (f : α → Option β) (g : β → γ) (xs : List α) :
    ((xs.filterMap f).map g).sum = (xs.map fun a => ((f a).toList.map g).sum).sum := by
  induction xs with
  | nil => rfl
  | cons a xs ih => cases h : f a <;> simp [h, ih]

/-- The lanes, reservations and check records as the sums over them see them. -/
theorem State.sum_dues (once : (s.lanes.map (·.1)).Nodup)
    (known : ∀ r ∈ s.movements, (s.lanes.get r.lane).isSome = true) (f : Int → Int) :
    (s.pendingDeltas.map f).sum = (s.lanes.map fun p => ((p.2.dues (s.reservationsOn p.1)).map f).sum).sum := by
  rw [State.pendingDeltas, List.map_append, List.sum_append, List.map_map, State.sum_byLane once known,
    sum_filterMap_toList, ← List.sum_map_add]
  refine congrArg List.sum (List.map_congr_left fun p _ => ?_)
  rw [Lane.dues, List.map_append, List.sum_append, List.map_map, Option.toList_map]

theorem State.sum_pending (once : (s.lanes.map (·.1)).Nodup)
    (known : ∀ r ∈ s.movements, (s.lanes.get r.lane).isSome = true) (z : Nat) : s.pendingMass z =
      (s.lanes.map fun p => loadMassIn z (s.reservationsOn p.1) + p.2.pendingIn z).sum := by
  have filtered (rs : List Reservation) : loadMassIn z rs =
      (rs.map fun r => if r.kind = .load ∧ r.zone = some z then r.mass else 0).sum := by
    induction rs with
    | nil => rfl
    | cons r rest ih =>
      rw [show r :: rest = [r] ++ rest from rfl, loadMassIn_append, ih, List.map_append, List.sum_append]
      by_cases h : r.kind = .load ∧ r.zone = some z <;> simp [loadMassIn, h]
  have all : s.pendingMass z = loadMassIn z s.movements + (s.lanes.map fun p => p.2.pendingIn z).sum := rfl
  rw [all, filtered, State.sum_byLane once known, ← List.sum_map_add]
  simp only [filtered]

/-! The state after the start -/

theorem warmLane_congr {a b : Table Zone} (h : SameStretches a b) (k : Nat) (l : Lane) :
    warmLane b k l = warmLane a k l := by
  unfold warmLane warmCheck
  simp only [h.zoneAt_eq]

theorem State.warmLoaded_lanes (own : s.store.image = s.image) (rates : BitVec 3) :
    (s.warmLoaded rates).lanes = s.relievedLanes := by
  have via : (s.warmLoaded rates).lanes = s.store.image.lanes.map fun p =>
    (p.1, warmLane s.store.image.zones ((s.store.image.admitting.get p.1).getD 0) p.2) := rfl
  rw [via, own]
  refine List.map_congr_left fun p _ => ?_
  rw [show s.image.zones = s.zones.mapAll Zone.stretch from rfl, warmLane_congr (.stretched s.zones)]
  rfl

/-- Sums over the lanes that the settling leaves as they are. -/
theorem State.sum_relieved {β : Type} [AddMonoid β] (planned : s.Planned) (f : Nat → Lane → β) (g : Lane → β)
    (same : ∀ n l l', l.Relieved s.zones (s.reservationsOn n) l' → g l' = f n l) :
    (s.relievedLanes.map fun p => g p.2).sum = (s.lanes.map fun p => f p.1 p.2).sum := by
  rw [State.relievedLanes, List.map_map]
  exact congrArg List.sum (List.map_congr_left fun p hp => same p.1 p.2 _ (State.relieved planned hp))

/-- Zones with the same stretches that hold the same. -/
theorem zones_eq {a b : Table Zone} (h : SameStretches a b) {confirmed due : Nat → Nat}
    (ha : ∀ z ∈ a, z.2.confirmed = confirmed z.1 ∧ z.2.pendingLoad = due z.1)
    (hb : ∀ z ∈ b, z.2.confirmed = confirmed z.1 ∧ z.2.pendingLoad = due z.1) : b = a := by
  induction a generalizing b with
  | nil => exact List.map_eq_nil_iff.mp h
  | cons x xs ih =>
    cases b with
    | nil => cases h
    | cons y ys =>
      simp only [SameStretches, Table.mapAll, List.map_cons, List.cons.injEq, Prod.mk.injEq] at h
      obtain ⟨⟨number, stretch⟩, rest⟩ := h
      rw [List.forall_mem_cons] at ha hb
      rw [ih rest ha.2 hb.2]
      obtain ⟨n, z⟩ := x
      obtain ⟨m, w⟩ := y
      obtain ⟨rfl : m = n⟩ := number
      obtain ⟨⟨c, d⟩, -⟩ := ha
      obtain ⟨⟨c', d'⟩, -⟩ := hb
      cases z
      cases w
      simp only [Zone.stretch, Zone.mk.injEq] at *
      simp_all

/-- What the start keeps of the account, the zones and the pool (R77). -/
structure State.KeepsEnvelopes (s t : State) : Prop where
  tc : t.account.tc = s.account.tc
  plus : t.account.pPlus = s.account.pPlus
  minus : t.account.pMinus = s.account.pMinus
  kp : t.account.kp = s.account.kp
  ks : t.account.ks = s.account.ks
  h : t.account.h = s.account.h
  zones : t.zones = s.zones
  pool : t.poolInUse = s.poolInUse

theorem State.warmLoaded_keeps (once : (s.lanes.map (·.1)).Nodup) (planned : s.Planned)
    (own : s.store.image = s.image) (rates : BitVec 3) : s.KeepsEnvelopes (s.warmLoaded rates) := by
  have after := State.warmLoaded_planned (s := s) (rates := rates) (own ▸ planned.image)
  have known := planned.berthed.known
  have lanes := State.warmLoaded_lanes own rates
  have stretches : SameStretches s.zones (s.warmLoaded rates).zones := by
    have := State.warmLoaded_stretches (s := s) (rates := rates)
    rw [own] at this
    exact this.trans (SameStretches.stretched s.zones)
  obtain ⟨tc, plus, minus, confirmed, pending, pool, -⟩ := planned.ledger
  have deltas (f : Int → Int) : ((s.warmLoaded rates).pendingDeltas.map f).sum = (s.pendingDeltas.map f).sum := by
    have each := State.sum_relieved planned (fun n l => ((l.dues (s.reservationsOn n)).map f).sum)
      (fun l => ((l.dues []).map f).sum) fun n l l' h => by rw [h.dues]
    rw [State.sum_dues once known, ← each, State.pendingDeltas, List.map_append, List.sum_append,
      sum_filterMap_toList, lanes, show (s.warmLoaded rates).movements = [] from rfl]
    simp [Lane.dues, Option.toList_map]
  refine ⟨?_, ?_, ?_, congrArg Image.kp own, congrArg Image.ks own, congrArg Image.h own, ?_, ?_⟩
  · rw [after.ledger.tc, lanes, State.sum_relieved planned (fun _ l => l.momentAboard) (fun l => l.momentAboard)
      fun n l l' h => h.moment, ← tc]
  · rw [after.ledger.plus, deltas, ← plus]
  · rw [after.ledger.minus, deltas, ← minus]
  · refine zones_eq (confirmed := fun k => (s.lanes.map fun p => p.2.aboardIn s.zones k).sum)
      (due := s.pendingMass) stretches (fun z hz => ⟨confirmed z hz, pending z hz⟩) fun z hz => ⟨?_, ?_⟩
    · rw [after.ledger.confirmed z hz, lanes]
      simp only [stretches.aboardIn]
      exact State.sum_relieved planned (fun _ l => l.aboardIn s.zones z.1) (fun l => l.aboardIn s.zones z.1)
        fun n l l' h => h.inZone z.1
    · rw [after.ledger.pending z hz, State.sum_pending once known, State.pendingMass, lanes,
        State.sum_relieved planned (fun n l => loadMassIn z.1 (s.reservationsOn n) + l.pendingIn z.1)
          (fun l => l.pendingIn z.1) fun n l l' h => h.pending z.1]
      exact Nat.zero_add _
  · rw [after.ledger.pool, pool, lanes, State.sum_relieved planned (fun _ l => l.places) (fun l => l.places)
      fun n l l' h => by
        have := congrArg List.length h.units
        simpa [Lane.units, Lane.places] using this]

/-- What a start with the strap WARM leaves of the warm-started controller: everything but MODE on the links,
and the section faults of an entry into POWER_DOWN. -/
structure State.StartedAs (w t : State) : Prop where
  account : t.account = w.account
  zones : t.zones = w.zones
  pool : t.poolInUse = w.poolInUse
  movements : t.movements = w.movements
  waiting : t.waiting = w.waiting
  lanes : t.lanes = w.lanes
  sections : t.sections = w.sections ∨ t.sections = w.sections.mapAll Sect.powerDown

theorem exec_startWarm (intact : s.store.intact = true) (rates : BitVec 3) :
    ∃ t, exec (.start .warm rates) s = .next t ∧ (s.warmStart rates).StartedAs t := by
  have started : s.started .warm rates = (s.warmStart rates, .warm) := by simp [State.started, intact]
  refine ⟨_, rfl, ?_⟩
  rw [started]
  dsimp only
  split
  · exact ⟨rfl, rfl, rfl, rfl, rfl, rfl, .inr rfl⟩
  · exact ⟨rfl, rfl, rfl, rfl, rfl, rfl, .inl rfl⟩

/-- The warm-started controller has the account, the zones and the pool of the settled lanes. -/
theorem State.warmStart_keeps (once : (s.lanes.map (·.1)).Nodup) (planned : s.Planned)
    (own : s.store.image = s.image) (rates : BitVec 3) : s.KeepsEnvelopes (s.warmStart rates) := by
  have loaded := State.warmLoaded_keeps once planned own rates
  rw [State.warmStart_eq, State.warmSections_eq]
  exact { loaded with }

theorem Table.get_mapWith {α β : Type} (t : Table α) (g : Nat × α → β) (n : Nat) :
    Table.get (t.map fun p => (p.1, g p)) n = (t.get n).map fun a => g (n, a) := by
  induction t with
  | nil => rfl
  | cons p rest ih =>
    by_cases e : p.1 = n
    · subst e
      simp [Table.get]
    · simpa [Table.get, e] using ih

theorem revisedLane_cases (s0 s1 : State) (p : Nat × Lane) :
    (revisedLane s0 s1 p).2 = p.2 ∨ (revisedLane s0 s1 p).2 = p.2.revise := by
  unfold revisedLane
  split
  · split
    · exact .inr rfl
    · exact .inl rfl
  · exact .inl rfl

/-- A lane after the start: settled, and revised where the settling changed it (R34). -/
theorem State.warmStart_lanes_get (own : s.store.image = s.image) (rates : BitVec 3) {n : Nat} {l : Lane}
    (get : s.lanes.get n = some l) : ∃ k, (s.warmStart rates).lanes.get n = some k ∧
      (k = warmLane s.zones ((s.admitting.get n).getD 0) l ∨
        k = (warmLane s.zones ((s.admitting.get n).getD 0) l).revise) := by
  have here : (s.warmLoaded rates).lanes.get n = some (warmLane s.zones ((s.admitting.get n).getD 0) l) := by
    rw [State.warmLoaded_lanes own rates, State.relievedLanes, Table.get_mapWith, get]
    rfl
  have paired (s1 : State) : (revisedLane (s.restored rates) s1) = fun p =>
      (p.1, (revisedLane (s.restored rates) s1 p).2) :=
    funext fun p => Prod.ext (revisedLane_number ..) rfl
  rw [State.warmStart_eq, State.warmSections_eq, State.reviseFrom, paired]
  dsimp only
  rw [Table.get_mapWith, here]
  exact ⟨_, rfl, revisedLane_cases ..⟩

/-- Whether a section's lanes carry a pending movement is the same after the settling (R122). -/
theorem State.warmLoaded_pendingLanes (planned : s.Planned) (own : s.store.image = s.image) (rates : BitVec 3)
    (n : Nat) : (s.warmLoaded rates).pendingLanes n = s.pendingLanes n := by
  have pending (p : Nat × Lane) (hp : p ∈ s.lanes) :
      (s.warmLoaded rates).pendingMovement p.1 (warmLane s.zones ((s.admitting.get p.1).getD 0) p.2) =
        s.pendingMovement p.1 p.2 := by
    have one := (State.relieved planned hp).waits
    rw [State.pendingMovement, State.pendingMovement, one, show (s.warmLoaded rates).movements = [] from rfl]
    rw [Bool.eq_iff_iff]
    simp [State.reservationsOn, List.isEmpty_eq_false_iff, List.filter_eq_nil_iff]
  have affected (p : Nat × Lane) (hp : p ∈ s.lanes) :
      (warmLane s.zones ((s.admitting.get p.1).getD 0) p.2).affectedBy n = p.2.affectedBy n := by
    rw [Lane.affectedBy, (State.relieved planned hp).profile, Lane.affectedBy]
  rw [State.pendingLanes, State.affectedLanes, State.warmLoaded_lanes own rates, State.relievedLanes,
    List.filter_filter, List.filter_map, List.map_map, State.pendingLanes, State.affectedLanes, List.filter_filter]
  rw [List.filter_congr (q := fun p => s.pendingMovement p.1 p.2 && p.2.affectedBy n) fun p hp => by
    simp only [Function.comp, affected p hp, pending p hp]]
  rfl

theorem State.image_sections (s : State) :
    s.image.sections = s.sections.mapAll fun c => { c with origin := none, timer := 0 } := rfl

/-- The image keeps a section as it stands, unless it moves. -/
theorem State.image_section (sections : s.Sectioned) (isSealed : s.isSealed = true) {n : Nat} {c : Sect}
    (get : s.sections.get n = some c) : s.image.sections.get n = some { c with origin := none, timer := 0 } ∧
      (c.state = .moving ∨ { c with origin := none, timer := 0 } = c) := by
  obtain ⟨ok, origin⟩ := sections isSealed (n, c) (Table.mem_of_get get)
  refine ⟨?_, ?_⟩
  · rw [State.image_sections, Table.get_mapAll, get]
    rfl
  · obtain ⟨clearances, position, state, origin, target, faultHeld, cause, timer⟩ := c
    cases state <;> simp_all [Sect.ok, Sect.originOk]

theorem State.warmStart_section (sound : s.sound = true) (own : s.store.image = s.image) (rates : BitVec 3)
    (isSealed : s.isSealed = true) {n : Nat} {c : Sect} (get : s.sections.get n = some c) :
    (s.warmStart rates).sections.get n = some (s.warmedSection n c) ∧ (s.warmedSection n c).state ≠ .moving := by
  obtain ⟨⟨⟨stores, -, sections⟩, planned, -⟩, -⟩ := (State.sound_iff s).mp sound
  obtain ⟨-, tables⟩ := (State.storesOk_iff s).mp stores
  simp only [Image.tablesOk, Bool.and_eq_true] at tables
  obtain ⟨here, image⟩ := (State.sectionsOk_iff s).mp sections
  obtain ⟨stored, same⟩ := State.image_section here isSealed get
  have reads (d : Sect) : (s.warmLoaded rates).warmedSection n d = s.warmedSection n d := by
    unfold State.warmedSection
    rw [State.warmLoaded_pendingLanes planned own rates]
    rfl
  rw [State.warmStart_sections_get rates (own ▸ isSealed) tables.1.2 image, own, stored, Option.map_some, reads]
  refine ⟨congrArg some ?_, ?_⟩
  · rcases same with moving | same
    · simp [State.warmedSection, moving, Sect.faulted]
    · rw [same]
  · unfold State.warmedSection
    dsimp only
    split
    · simp [Sect.faulted]
    · split
      · assumption
      · split
        · simp
        · split <;> simp [Sect.faulted, Sect.holding]

/-- No section is settled in an unsealed profile. -/
theorem State.warmSections_unsealed {ns : List Nat} {s : State} (unsealed : s.isSealed = false) :
    s.warmSections ns = s := by
  induction ns with
  | nil => rfl
  | cons n rest ih =>
    rw [State.warmSections, State.fittedSection, if_neg (by simp [unsealed])]
    exact ih

theorem State.warmStart_sections_unsealed (own : s.store.image = s.image) (rates : BitVec 3)
    (unsealed : s.isSealed = false) (n : Nat) : (s.warmStart rates).sections.get n =
      (s.sections.get n).map fun c => { c with origin := none, timer := 0 } := by
  rw [State.warmStart_eq, State.warmSections_unsealed (by exact (congrArg Image.isSealed own).trans unsealed)]
  change s.store.image.sections.get n = _
  rw [own, State.image_sections, Table.get_mapAll]

/-- Settles O20. -/
theorem warmStartKeepsTheEnvelopes : Obligations.WarmStartKeepsTheEnvelopes := by
  intro s rates sound supplied
  obtain ⟨governed, -, image, -⟩ := (State.sound_iff s).mp sound
  obtain ⟨own, intact⟩ : s.store.image = s.image ∧ s.store.intact = true := by
    simpa [State.imageOk, supplied] using image
  have wf := (State.tablesOk_iff s).mp ((State.storesOk_iff s).mp governed.settled.1).1
  obtain ⟨t, run, started⟩ := exec_startWarm intact rates
  have kept := State.warmStart_keeps (Table.numbers_nodup wf.1) governed.planned own rates
  refine ⟨t, run, ?_⟩
  rw [started.account, started.zones, started.pool, started.movements, started.waiting, started.lanes]
  refine ⟨kept.tc, kept.plus, kept.minus, kept.kp, kept.ks, kept.h, kept.zones, kept.pool, ?_, ?_, ?_, ?_, ?_, ?_⟩
  · rw [State.warmStart_eq, State.warmSections_eq]; rfl
  · rw [State.warmStart_eq, State.warmSections_eq]; rfl
  · intro n l get
    obtain ⟨k, found, how⟩ := State.warmStart_lanes_get own rates get
    have mem := (Table.mem_iff_get wf.1 n l).mpr get
    have lane := State.relieved governed.planned mem
    have warmed := warmLane_warmed (gap := s.gap) ((s.admitting.get n).getD 0)
      (Berth.iff.mp (governed.planned.berthed.berth _ mem)).1
    have mass : (warmLane s.zones ((s.admitting.get n).getD 0) l).mass = l.mass := by
      rw [warmed.mass, lane.mass, governed.planned.berthed.mass _ mem]
    have inService : (warmLane s.zones ((s.admitting.get n).getD 0) l).inService = false :=
      Lane.inService_false.mpr warmed.stowed
    have on := State.reservationOn_eq s n
    have kept : k.profile = l.profile ∧ k.units = l.units ∧ k.mass = l.mass ∧ k.closed = l.closed ∧
        k.level = l.level ∧ k.inService = false ∧
        k.entries = (warmLane s.zones ((s.admitting.get n).getD 0) l).entries ∧
        k.check = (warmLane s.zones ((s.admitting.get n).getD 0) l).check := by
      rcases how with rfl | rfl <;>
        exact ⟨lane.profile, lane.units, mass, lane.closed, lane.level, inService, rfl, rfl⟩
    obtain ⟨profile, units, mass, closed, level, idle, entries, check⟩ := kept
    refine ⟨k, found, profile, units, mass, closed, level, idle, fun free => ?_, fun r hr => ?_⟩
    · rw [entries, check]
      exact lane.unreserved (by simpa [free] using on.symm)
    · rw [entries, check]
      obtain none_ | ⟨q, only, -⟩ := (governed.planned.berthed.berth _ mem).reserved
      · have : s.reservationsOn n = [] := none_
        rw [this, hr] at on
        cases on
      · have only : s.reservationsOn n = [q] := only
        rw [only, hr] at on
        obtain rfl : r = q := Option.some.inj on
        exact ⟨lane.load r only, lane.discharge r only⟩
  · have numbers : (s.warmStart rates).sections.map (·.1) = s.sections.map (·.1) := by
      refine (s.warmStart_numbers rates).sections.trans ?_
      change s.store.image.sections.map (·.1) = _
      rw [own, State.image_sections, Table.keys_mapAll]
    rcases started.sections with same | same
    · rw [same, numbers]
    · rw [same, Table.keys_mapAll, numbers]
  · intro isSealed n c get
    obtain ⟨settled, rest⟩ := State.warmStart_section sound own rates isSealed get
    rcases started.sections with same | same
    · rw [same, settled]
    · rw [same, Table.get_mapAll, settled]
      simp [Sect.powerDown, rest]
  · intro unsealed n c get
    have settled := State.warmStart_sections_unsealed own rates unsealed n
    rw [get] at settled
    rcases started.sections with same | same
    · exact ⟨_, (congrArg (Table.get · n) same).trans settled, rfl⟩
    · rw [same, Table.get_mapAll, settled]
      refine ⟨_, rfl, ?_⟩
      unfold Sect.powerDown
      split <;> rfl

end

end Sys2Proof.Machine

/-! The checks that open every request: authority, mode and form (spec/09 R152, R155); O4 to O7. -/

namespace Sys2Proof.Machine

theorem State.sectionShown_of_ne {code : Nat} (move : code ≠ 0x13) (cancel : code ≠ 0x14) (s : State)
    (p : List Byte) : s.sectionShown code p = [] := by
  unfold State.sectionShown
  split
  · simp [move, cancel]
  · rfl

theorem State.sectionShown_move (s : State) (p : List Byte) : s.sectionShown 0x13 p = s.namedSection p encSect := by
  unfold State.sectionShown State.namedSection
  split
  · rename_i c h
    simp [h]
  · rename_i h
    simp [h]

theorem State.sectionShown_cancel (s : State) (p : List Byte) :
    s.sectionShown 0x14 p = s.namedSection p encSectBrief := by
  unfold State.sectionShown State.namedSection
  split
  · rename_i c h
    simp [h]
  · rename_i h
    simp [h]

theorem State.namedSection_nil (s : State) (p : List Byte) : s.namedSection p (fun _ => []) = [] := by
  simp [State.namedSection]

theorem rampOf_of_stranger {st : Station} (h : isRampStation st = false) : rampOf st = none := by
  simpa [isRampStation] using h

theorem rampOf_of_ramp {st : Station} (h : isRampStation st = true) : ∃ ramp, rampOf st = some ramp :=
  Option.isSome_iff_exists.mp h

/-- A request's handler checks authority, then the mode, then the form, and refuses there without any change. -/
structure Opens (code : Nat) (handle : Station → List Byte → State → Taken) : Prop where
  authority {st : Station} {p : List Byte} {s : State} (h : authorised code st = false) :
    handle st p s = refuse s .authority (s.sectionShown code p)
  mode {st : Station} {p : List Byte} {s : State} (h : authorised code st = true)
    (k : takenIn code s.mode = false) : handle st p s = refuse s .mode (s.sectionShown code p)
  form {st : Station} {p : List Byte} {s : State} (h : authorised code st = true)
    (k : takenIn code s.mode = true) (l : lengthFits code p = false)
    (ramp : code = 0x30 ∨ code = 0x34 → ∃ row, (rampOf st).bind s.fittedRamp = some row ∧ row.suspended = false)
    (cutoff : code = 0x30 → s.clock.reached = false) (stop : code = 0x34 → s.monitor.stop = false) :
    handle st p s = refuseAt s 0 0 (s.sectionShown code p)

theorem handleDefLane_opens : Opens 0x01 handleDefLane where
  authority h := by simp_all [authorised, handleDefLane, defOpens, State.sectionShown_of_ne]
  mode h k := by simp_all [authorised, takenIn, handleDefLane, defOpens, State.sectionShown_of_ne]
  form h k l ramp cutoff stop := by simp_all [authorised, takenIn, lengthFits, handleDefLane, defOpens, State.sectionShown_of_ne]

theorem handleDefZone_opens : Opens 0x02 handleDefZone where
  authority h := by simp_all [authorised, handleDefZone, defOpens, State.sectionShown_of_ne]
  mode h k := by simp_all [authorised, takenIn, handleDefZone, defOpens, State.sectionShown_of_ne]
  form h k l ramp cutoff stop := by simp_all [authorised, takenIn, lengthFits, handleDefZone, defOpens, State.sectionShown_of_ne]

theorem handleDefRamp_opens : Opens 0x03 handleDefRamp where
  authority h := by simp_all [authorised, handleDefRamp, defOpens, State.sectionShown_of_ne]
  mode h k := by simp_all [authorised, takenIn, handleDefRamp, defOpens, State.sectionShown_of_ne]
  form h k l ramp cutoff stop := by
    simp_all [authorised, takenIn, lengthFits, handleDefRamp, defOpens, State.sectionShown_of_ne]
    exact fun big fits => absurd fits (l.2 big)

theorem handleDefSection_opens : Opens 0x04 handleDefSection where
  authority h := by simp_all [authorised, handleDefSection, defOpens, State.sectionShown_of_ne]
  mode h k := by simp_all [authorised, takenIn, handleDefSection, defOpens, State.sectionShown_of_ne]
  form h k l ramp cutoff stop := by simp_all [authorised, takenIn, lengthFits, handleDefSection, defOpens, State.sectionShown_of_ne]

theorem handleDefShip_opens : Opens 0x05 handleDefShip where
  authority h := by simp_all [authorised, handleDefShip, defOpens, State.sectionShown_of_ne]
  mode h k := by simp_all [authorised, takenIn, handleDefShip, defOpens, State.sectionShown_of_ne]
  form h k l ramp cutoff stop := by simp_all [authorised, takenIn, lengthFits, handleDefShip, defOpens, State.sectionShown_of_ne]

theorem handleSeal_opens : Opens 0x06 handleSeal where
  authority h := by simp_all [authorised, handleSeal, State.sectionShown_of_ne]
  mode h k := by simp_all [authorised, takenIn, handleSeal, State.sectionShown_of_ne]
  form h k l ramp cutoff stop := by simp_all [authorised, takenIn, lengthFits, handleSeal, State.sectionShown_of_ne]

theorem handleClearPlan_opens : Opens 0x07 handleClearPlan where
  authority h := by simp_all [authorised, handleClearPlan, State.sectionShown_of_ne]
  mode h k := by simp_all [authorised, takenIn]
  form h k l ramp cutoff stop := by simp_all [authorised, takenIn, lengthFits, handleClearPlan, State.sectionShown_of_ne]

theorem handleBand_opens : Opens 0x08 handleBand where
  authority h := by simp_all [authorised, handleBand, State.sectionShown_of_ne]
  mode h k := by simp_all [authorised, takenIn]
  form h k l ramp cutoff stop := by simp_all [authorised, takenIn, lengthFits, handleBand, State.sectionShown_of_ne]

theorem handleHeelModel_opens : Opens 0x09 handleHeelModel where
  authority h := by simp_all [authorised, handleHeelModel, State.sectionShown_of_ne]
  mode h k := by simp_all [authorised, takenIn]
  form h k l ramp cutoff stop := by simp_all [authorised, takenIn, lengthFits, handleHeelModel, State.sectionShown_of_ne]

theorem handleTanks_opens : Opens 0x0A handleTanks where
  authority h := by simp_all [authorised, handleTanks, State.sectionShown_of_ne]
  mode h k := by simp_all [authorised, takenIn]
  form h k l ramp cutoff stop := by simp_all [authorised, takenIn, lengthFits, handleTanks, State.sectionShown_of_ne]

theorem handleReleaseStop_opens : Opens 0x0B handleReleaseStop where
  authority h := by simp_all [authorised, handleReleaseStop, State.sectionShown_of_ne]
  mode h k := by simp_all [authorised, takenIn]
  form h k l ramp cutoff stop := by simp_all [authorised, takenIn, lengthFits, handleReleaseStop, State.sectionShown_of_ne]

theorem handleTimeout_opens : Opens 0x0C handleTimeout where
  authority h := by simp_all [authorised, handleTimeout, State.sectionShown_of_ne]
  mode h k := by simp_all [authorised, takenIn]
  form h k l ramp cutoff stop := by simp_all [authorised, takenIn, lengthFits, handleTimeout, State.sectionShown_of_ne]

theorem handleCutoff_opens : Opens 0x0D handleCutoff where
  authority h := by simp_all [authorised, handleCutoff, State.sectionShown_of_ne]
  mode h k := by simp_all [authorised, takenIn, handleCutoff, State.sectionShown_of_ne]
  form h k l ramp cutoff stop := by simp_all [authorised, takenIn, lengthFits, handleCutoff, State.sectionShown_of_ne]

theorem handleClock_opens : Opens 0x0E handleClock where
  authority h := by simp_all [authorised, handleClock, State.sectionShown_of_ne]
  mode h k := by simp_all [authorised, takenIn, handleClock, State.sectionShown_of_ne]
  form h k l ramp cutoff stop := by simp_all [authorised, takenIn, lengthFits, handleClock, State.sectionShown_of_ne]

theorem handleResume_opens : Opens 0x0F handleResume where
  authority h := by simp_all [authorised, handleResume, State.sectionShown_of_ne]
  mode h k := by simp_all [authorised, takenIn, handleResume, State.sectionShown_of_ne]
  form h k l ramp cutoff stop := by simp_all [authorised, takenIn, lengthFits, handleResume, State.sectionShown_of_ne]

theorem handleLinkReset_opens : Opens 0x10 handleLinkReset where
  authority h := by simp_all [authorised, handleLinkReset, State.sectionShown_of_ne]
  mode h k := by simp_all [authorised, takenIn]
  form h k l ramp cutoff stop := by simp_all [authorised, takenIn, lengthFits, handleLinkReset, State.sectionShown_of_ne]

theorem handleSuspendRamp_opens : Opens 0x11 handleSuspendRamp where
  authority h := by simp_all [authorised, handleSuspendRamp, setSuspended, State.sectionShown_of_ne]
  mode h k := by simp_all [authorised, takenIn, handleSuspendRamp, setSuspended, State.sectionShown_of_ne]
  form h k l ramp cutoff stop := by simp_all [authorised, takenIn, lengthFits, handleSuspendRamp, setSuspended, State.sectionShown_of_ne]

theorem handleResumeRamp_opens : Opens 0x12 handleResumeRamp where
  authority h := by simp_all [authorised, handleResumeRamp, setSuspended, State.sectionShown_of_ne]
  mode h k := by simp_all [authorised, takenIn, handleResumeRamp, setSuspended, State.sectionShown_of_ne]
  form h k l ramp cutoff stop := by simp_all [authorised, takenIn, lengthFits, handleResumeRamp, setSuspended, State.sectionShown_of_ne]

theorem handleMove_opens : Opens 0x13 handleMove where
  authority h := by simp_all [authorised, handleMove, sectionRequest, State.sectionShown_move]
  mode h k := by simp_all [authorised, takenIn, handleMove, sectionRequest, State.sectionShown_move]
  form h k l ramp cutoff stop := by simp_all [authorised, takenIn, lengthFits, handleMove, sectionRequest, State.sectionShown_move]

theorem handleCancelMove_opens : Opens 0x14 handleCancelMove where
  authority h := by simp_all [authorised, handleCancelMove, sectionRequest, State.sectionShown_cancel]
  mode h k := by simp_all [authorised, takenIn, handleCancelMove, sectionRequest, State.sectionShown_cancel]
  form h k l ramp cutoff stop := by simp_all [authorised, takenIn, lengthFits, handleCancelMove, sectionRequest, State.sectionShown_cancel]

theorem handleClearFault_opens : Opens 0x15 handleClearFault where
  authority h := by simp_all [authorised, handleClearFault, sectionRequest, State.namedSection_nil, State.sectionShown_of_ne]
  mode h k := by simp_all [authorised, takenIn, handleClearFault, sectionRequest, State.namedSection_nil, State.sectionShown_of_ne]
  form h k l ramp cutoff stop := by simp_all [authorised, takenIn, lengthFits, handleClearFault, sectionRequest, State.namedSection_nil, State.sectionShown_of_ne]

theorem handleAnnounce_opens : Opens 0x20 handleAnnounce where
  authority h := by simp_all [authorised, handleAnnounce, State.sectionShown_of_ne]
  mode h k := by simp_all [authorised, takenIn]
  form h k l ramp cutoff stop := by simp_all [authorised, takenIn, lengthFits, handleAnnounce, State.sectionShown_of_ne]

theorem handleWithdraw_opens : Opens 0x21 handleWithdraw where
  authority h := by simp_all [authorised, handleWithdraw, State.sectionShown_of_ne]
  mode h k := by simp_all [authorised, takenIn]
  form h k l ramp cutoff stop := by simp_all [authorised, takenIn, lengthFits, handleWithdraw, State.sectionShown_of_ne]

theorem handleSetPriority_opens : Opens 0x22 handleSetPriority where
  authority h := by simp_all [authorised, handleSetPriority, State.sectionShown_of_ne]
  mode h k := by simp_all [authorised, takenIn, handleSetPriority, State.sectionShown_of_ne]
  form h k l ramp cutoff stop := by simp_all [authorised, takenIn, lengthFits, handleSetPriority, State.sectionShown_of_ne]

theorem handleSetMask_opens : Opens 0x23 handleSetMask where
  authority h := by simp_all [authorised, handleSetMask, State.sectionShown_of_ne]
  mode h k := by simp_all [authorised, takenIn, handleSetMask, State.sectionShown_of_ne]
  form h k l ramp cutoff stop := by simp_all [authorised, takenIn, lengthFits, handleSetMask, State.sectionShown_of_ne]

theorem handleArrive_opens : Opens 0x30 handleArrive where
  authority h := by
    have stranger := rampOf_of_stranger h
    simp [handleArrive, stranger, State.sectionShown_of_ne]
  mode h k := by
    obtain ⟨ramp, station⟩ := rampOf_of_ramp h
    simp_all [handleArrive, takenIn, State.sectionShown_of_ne]
  form h k l fitted cutoff stop := by
    obtain ⟨ramp, station⟩ := rampOf_of_ramp h
    obtain ⟨row, fitted, suspended⟩ := fitted (by simp)
    simp_all [handleArrive, takenIn, lengthFits, State.sectionShown_of_ne]

theorem handleLashed_opens : Opens 0x31 handleLashed where
  authority h := by
    have stranger := rampOf_of_stranger h
    simp [handleLashed, confirmation, stranger, State.sectionShown_of_ne]
  mode h k := by
    obtain ⟨ramp, station⟩ := rampOf_of_ramp h
    simp_all [handleLashed, confirmation, takenIn, State.sectionShown_of_ne]
  form h k l ramp cutoff stop := by
    obtain ⟨ramp, station⟩ := rampOf_of_ramp h
    simp_all [handleLashed, confirmation, takenIn, lengthFits, State.sectionShown_of_ne]

theorem handleBackout_opens : Opens 0x32 handleBackout where
  authority h := by
    have stranger := rampOf_of_stranger h
    simp [handleBackout, confirmation, stranger, State.sectionShown_of_ne]
  mode h k := by
    obtain ⟨ramp, station⟩ := rampOf_of_ramp h
    simp_all [handleBackout, confirmation, takenIn, State.sectionShown_of_ne]
  form h k l ramp cutoff stop := by
    obtain ⟨ramp, station⟩ := rampOf_of_ramp h
    simp_all [handleBackout, confirmation, takenIn, lengthFits, State.sectionShown_of_ne]

theorem handleSendBack_opens : Opens 0x33 handleSendBack where
  authority h := by simp_all [authorised, handleSendBack, State.sectionShown_of_ne]
  mode h k := by simp_all [authorised, takenIn, handleSendBack, State.sectionShown_of_ne]
  form h k l ramp cutoff stop := by simp_all [authorised, takenIn, lengthFits, handleSendBack, State.sectionShown_of_ne]

theorem handleUnlash_opens : Opens 0x34 handleUnlash where
  authority h := by
    have stranger := rampOf_of_stranger h
    simp [handleUnlash, stranger, State.sectionShown_of_ne]
  mode h k := by
    obtain ⟨ramp, station⟩ := rampOf_of_ramp h
    simp_all [handleUnlash, takenIn, State.sectionShown_of_ne]
  form h k l fitted cutoff stop := by
    obtain ⟨ramp, station⟩ := rampOf_of_ramp h
    obtain ⟨row, fitted, suspended⟩ := fitted (by simp)
    simp_all [handleUnlash, takenIn, lengthFits, State.sectionShown_of_ne]

theorem handleOffloaded_opens : Opens 0x35 handleOffloaded where
  authority h := by
    have stranger := rampOf_of_stranger h
    simp [handleOffloaded, confirmation, stranger, State.sectionShown_of_ne]
  mode h k := by
    obtain ⟨ramp, station⟩ := rampOf_of_ramp h
    simp_all [handleOffloaded, confirmation, takenIn, State.sectionShown_of_ne]
  form h k l ramp cutoff stop := by
    obtain ⟨ramp, station⟩ := rampOf_of_ramp h
    simp_all [handleOffloaded, confirmation, takenIn, lengthFits, State.sectionShown_of_ne]

theorem handleKeep_opens : Opens 0x36 handleKeep where
  authority h := by
    have stranger := rampOf_of_stranger h
    simp [handleKeep, confirmation, stranger, State.sectionShown_of_ne]
  mode h k := by
    obtain ⟨ramp, station⟩ := rampOf_of_ramp h
    simp_all [handleKeep, confirmation, takenIn, State.sectionShown_of_ne]
  form h k l ramp cutoff stop := by
    obtain ⟨ramp, station⟩ := rampOf_of_ramp h
    simp_all [handleKeep, confirmation, takenIn, lengthFits, State.sectionShown_of_ne]

theorem handleCloseLane_opens : Opens 0x40 handleCloseLane where
  authority h := by simp_all [authorised, handleCloseLane, laneRequest, State.sectionShown_of_ne]
  mode h k := by simp_all [authorised, takenIn, handleCloseLane, laneRequest, State.sectionShown_of_ne]
  form h k l ramp cutoff stop := by simp_all [authorised, takenIn, lengthFits, handleCloseLane, laneRequest, State.sectionShown_of_ne]

theorem handleOpenLane_opens : Opens 0x41 handleOpenLane where
  authority h := by simp_all [authorised, handleOpenLane, laneRequest, State.sectionShown_of_ne]
  mode h k := by simp_all [authorised, takenIn, handleOpenLane, laneRequest, State.sectionShown_of_ne]
  form h k l ramp cutoff stop := by simp_all [authorised, takenIn, lengthFits, handleOpenLane, laneRequest, State.sectionShown_of_ne]

theorem handleVerify_opens : Opens 0x42 handleVerify where
  authority h := by simp_all [authorised, handleVerify, laneRequest, State.sectionShown_of_ne]
  mode h k := by simp_all [authorised, takenIn, handleVerify, laneRequest, State.sectionShown_of_ne]
  form h k l ramp cutoff stop := by simp_all [authorised, takenIn, lengthFits, handleVerify, laneRequest, State.sectionShown_of_ne]

theorem handleReadLane_opens : Opens 0x50 handleReadLane where
  authority h := by simp_all [authorised]
  mode h k := by simp_all [authorised, takenIn, handleReadLane, State.sectionShown_of_ne]
  form h k l ramp cutoff stop := by simp_all [authorised, takenIn, lengthFits, handleReadLane, State.sectionShown_of_ne]

theorem handleReadUnit_opens : Opens 0x51 handleReadUnit where
  authority h := by simp_all [authorised]
  mode h k := by simp_all [authorised, takenIn]
  form h k l ramp cutoff stop := by simp_all [authorised, takenIn, lengthFits, handleReadUnit, State.sectionShown_of_ne]

theorem handleReadAccount_opens : Opens 0x52 handleReadAccount where
  authority h := by simp_all [authorised]
  mode h k := by simp_all [authorised, takenIn]
  form h k l ramp cutoff stop := by simp_all [authorised, takenIn, lengthFits, handleReadAccount, State.sectionShown_of_ne]

theorem handleReadState_opens : Opens 0x53 handleReadState where
  authority h := by simp_all [authorised]
  mode h k := by simp_all [authorised, takenIn]
  form h k l ramp cutoff stop := by simp_all [authorised, takenIn, lengthFits, handleReadState, State.sectionShown_of_ne]

theorem handleIdent_opens : Opens 0x54 handleIdent where
  authority h := by simp_all [authorised]
  mode h k := by simp_all [authorised, takenIn]
  form h k l ramp cutoff stop := by simp_all [authorised, takenIn, lengthFits, handleIdent, State.sectionShown_of_ne]

theorem handleSubscribe_opens : Opens 0x55 handleSubscribe where
  authority h := by simp_all [authorised]
  mode h k := by simp_all [authorised, takenIn]
  form h k l ramp cutoff stop := by
    simp_all [lengthFits, handleSubscribe, State.sectionShown_of_ne]
    exact fun some_ fits => absurd fits (l (List.length_pos_iff.mpr some_))

theorem request_eq {code code' : Nat} {st st' : Station} (h : some (code, st) = some (code', st')) :
    code = code' ∧ st = st' := Prod.mk.inj (Option.some.inj h)

/-- Every request's command takes its kind by a handler that opens so. -/
theorem requestOf_opens {c : Instr} {code : Nat} {st : Station} (h : requestOf c = some (code, st)) :
    ∃ handle, (∀ s, exec c s = s.takeKind st code handle) ∧ Opens code handle := by
  cases c
  case defLane => obtain ⟨rfl, rfl⟩ := request_eq h; exact ⟨_, fun _ => rfl, handleDefLane_opens⟩
  case defZone => obtain ⟨rfl, rfl⟩ := request_eq h; exact ⟨_, fun _ => rfl, handleDefZone_opens⟩
  case defRamp => obtain ⟨rfl, rfl⟩ := request_eq h; exact ⟨_, fun _ => rfl, handleDefRamp_opens⟩
  case defSection => obtain ⟨rfl, rfl⟩ := request_eq h; exact ⟨_, fun _ => rfl, handleDefSection_opens⟩
  case defShip => obtain ⟨rfl, rfl⟩ := request_eq h; exact ⟨_, fun _ => rfl, handleDefShip_opens⟩
  case sealPlan => obtain ⟨rfl, rfl⟩ := request_eq h; exact ⟨_, fun _ => rfl, handleSeal_opens⟩
  case clearPlan => obtain ⟨rfl, rfl⟩ := request_eq h; exact ⟨_, fun _ => rfl, handleClearPlan_opens⟩
  case band => obtain ⟨rfl, rfl⟩ := request_eq h; exact ⟨_, fun _ => rfl, handleBand_opens⟩
  case heelModel => obtain ⟨rfl, rfl⟩ := request_eq h; exact ⟨_, fun _ => rfl, handleHeelModel_opens⟩
  case tanks => obtain ⟨rfl, rfl⟩ := request_eq h; exact ⟨_, fun _ => rfl, handleTanks_opens⟩
  case releaseStop => obtain ⟨rfl, rfl⟩ := request_eq h; exact ⟨_, fun _ => rfl, handleReleaseStop_opens⟩
  case timeout => obtain ⟨rfl, rfl⟩ := request_eq h; exact ⟨_, fun _ => rfl, handleTimeout_opens⟩
  case cutoff => obtain ⟨rfl, rfl⟩ := request_eq h; exact ⟨_, fun _ => rfl, handleCutoff_opens⟩
  case clock => obtain ⟨rfl, rfl⟩ := request_eq h; exact ⟨_, fun _ => rfl, handleClock_opens⟩
  case resume => obtain ⟨rfl, rfl⟩ := request_eq h; exact ⟨_, fun _ => rfl, handleResume_opens⟩
  case linkReset => obtain ⟨rfl, rfl⟩ := request_eq h; exact ⟨_, fun _ => rfl, handleLinkReset_opens⟩
  case suspendRamp => obtain ⟨rfl, rfl⟩ := request_eq h; exact ⟨_, fun _ => rfl, handleSuspendRamp_opens⟩
  case resumeRamp => obtain ⟨rfl, rfl⟩ := request_eq h; exact ⟨_, fun _ => rfl, handleResumeRamp_opens⟩
  case move => obtain ⟨rfl, rfl⟩ := request_eq h; exact ⟨_, fun _ => rfl, handleMove_opens⟩
  case cancelMove => obtain ⟨rfl, rfl⟩ := request_eq h; exact ⟨_, fun _ => rfl, handleCancelMove_opens⟩
  case clearFault => obtain ⟨rfl, rfl⟩ := request_eq h; exact ⟨_, fun _ => rfl, handleClearFault_opens⟩
  case announce => obtain ⟨rfl, rfl⟩ := request_eq h; exact ⟨_, fun _ => rfl, handleAnnounce_opens⟩
  case withdraw => obtain ⟨rfl, rfl⟩ := request_eq h; exact ⟨_, fun _ => rfl, handleWithdraw_opens⟩
  case setPriority => obtain ⟨rfl, rfl⟩ := request_eq h; exact ⟨_, fun _ => rfl, handleSetPriority_opens⟩
  case setMask => obtain ⟨rfl, rfl⟩ := request_eq h; exact ⟨_, fun _ => rfl, handleSetMask_opens⟩
  case arrive => obtain ⟨rfl, rfl⟩ := request_eq h; exact ⟨_, fun _ => rfl, handleArrive_opens⟩
  case lashed => obtain ⟨rfl, rfl⟩ := request_eq h; exact ⟨_, fun _ => rfl, handleLashed_opens⟩
  case backout => obtain ⟨rfl, rfl⟩ := request_eq h; exact ⟨_, fun _ => rfl, handleBackout_opens⟩
  case sendBack => obtain ⟨rfl, rfl⟩ := request_eq h; exact ⟨_, fun _ => rfl, handleSendBack_opens⟩
  case unlash => obtain ⟨rfl, rfl⟩ := request_eq h; exact ⟨_, fun _ => rfl, handleUnlash_opens⟩
  case offloaded => obtain ⟨rfl, rfl⟩ := request_eq h; exact ⟨_, fun _ => rfl, handleOffloaded_opens⟩
  case keep => obtain ⟨rfl, rfl⟩ := request_eq h; exact ⟨_, fun _ => rfl, handleKeep_opens⟩
  case closeLane => obtain ⟨rfl, rfl⟩ := request_eq h; exact ⟨_, fun _ => rfl, handleCloseLane_opens⟩
  case openLane => obtain ⟨rfl, rfl⟩ := request_eq h; exact ⟨_, fun _ => rfl, handleOpenLane_opens⟩
  case verify => obtain ⟨rfl, rfl⟩ := request_eq h; exact ⟨_, fun _ => rfl, handleVerify_opens⟩
  case readLane => obtain ⟨rfl, rfl⟩ := request_eq h; exact ⟨_, fun _ => rfl, handleReadLane_opens⟩
  case readUnit => obtain ⟨rfl, rfl⟩ := request_eq h; exact ⟨_, fun _ => rfl, handleReadUnit_opens⟩
  case readAccount => obtain ⟨rfl, rfl⟩ := request_eq h; exact ⟨_, fun _ => rfl, handleReadAccount_opens⟩
  case readState => obtain ⟨rfl, rfl⟩ := request_eq h; exact ⟨_, fun _ => rfl, handleReadState_opens⟩
  case ident => obtain ⟨rfl, rfl⟩ := request_eq h; exact ⟨_, fun _ => rfl, handleIdent_opens⟩
  case subscribe => obtain ⟨rfl, rfl⟩ := request_eq h; exact ⟨_, fun _ => rfl, handleSubscribe_opens⟩
  all_goals cases h

/-- Settles O5: the mode is each handler's second check. -/
theorem modeIsCheckedNext : Obligations.ModeIsCheckedNext := by
  intro c code st s p f request offers ok authority mode
  obtain ⟨handle, taken, opens⟩ := requestOf_opens request
  exact .of_handle (taken s) offers ok (opens.mode authority mode)

theorem exec_unknownMessageKind {s : State} {st : Station} {f : Frame} (next : s.nextRequest st = some f)
    (ok : s.tablesOk = true) (unknown : isRequestKind f.kind.toNat = false) :
    OnlyAnswers (.unknownMessageKind st) s st f (.refuseField 0 0 [f.kind]) := by
  have taken := State.take_eq s st (fun k => !isRequestKind k) handleUnknownKind f next (by simp [unknown])
  unfold OnlyAnswers
  refine taken.trans ?_
  exact congrArg _ (State.finish_quiet (s := s.popMailbox st) ok ⟨rfl, rfl, rfl, rfl, rfl, rfl, rfl⟩ _ [] [])

/-- Settles O6: the form is each handler's third check, behind the ramp, the cut-off and the heel stop for
ARRIVE and UNLASH. -/
theorem formIsChecked : Obligations.FormIsChecked := by
  refine ⟨fun st s f next ok unknown => exec_unknownMessageKind next ok unknown, ?_⟩
  intro c code st s p f request offers ok authority mode form ramp cutoff stop
  obtain ⟨handle, taken, opens⟩ := requestOf_opens request
  exact .of_handle (taken s) offers ok (opens.form authority mode form ramp cutoff stop)

/-! One-byte fields -/

theorem natOf_field_u8 {n : Nat} (h : n < 256) : natOf (field (u8 n) 0 1) = n := by
  rw [field_whole (u8 n) (u8_length n), natOf_u8 h]

theorem natOf_field_u8_front {n : Nat} (h : n < 256) (rest : List Byte) :
    natOf (field (u8 n ++ rest) 0 1) = n := by
  rw [field_append (u8 n) rest (u8_length n), natOf_u8 h]

theorem natOf_field_u8_second (m : Nat) {n : Nat} (h : n < 256) : natOf (field (u8 m ++ u8 n) 1 1) = n := by
  have skipped : field (u8 m ++ u8 n) 1 1 = field (u8 n) 0 1 := field_skip (u8 m) (u8 n) 0 1 (u8_length m)
  rw [skipped, natOf_field_u8 h]

/-! Requests for one lane (R31, R118) -/

section
variable {st : Station} {s : State} {n : Nat} {k : Nat → Lane → Taken}

theorem laneNumberOk_iff {n : Nat} : laneNumberOk n = true ↔ 1 ≤ n ∧ n ≤ 48 := by
  simp [laneNumberOk]

theorem laneNumberOk_small {n : Nat} (h : laneNumberOk n = true) : n < 256 := by
  have := (laneNumberOk_iff.mp h).2
  omega

theorem laneRequest_of_out (station : st ≠ .yard) (mode : s.mode ≠ .profile) (small : n < 256)
    (out : laneNumberOk n = false) : laneRequest st (u8 n) s k = refuseAt s 1 := by
  simp [laneRequest, station, mode, natOf_field_u8 small, out]

theorem laneRequest_of_unreached (ramp : isRampStation st = true) (mode : s.mode ≠ .profile)
    (number : laneNumberOk n = true) (unreached : n ∉ s.reachOf st) :
    laneRequest st (u8 n) s k = refuse s .authority := by
  have station : st ≠ .yard := by rintro rfl; cases ramp
  simp [laneRequest, station, mode, natOf_field_u8 (laneNumberOk_small number), number, ramp, unreached]

/-- Who may speak of a lane: the loading computer, and a ramp station whose reach holds it. -/
def State.MayName (s : State) (st : Station) (n : Nat) : Prop :=
  st = .loading ∨ (isRampStation st = true ∧ n ∈ s.reachOf st)

theorem State.MayName.passes (h : s.MayName st n) :
    st ≠ .yard ∧ ¬ (isRampStation st = true ∧ n ∉ s.reachOf st) := by
  rcases h with rfl | ⟨ramp, mem⟩
  · exact ⟨by simp, fun h => by cases h.1⟩
  · refine ⟨?_, fun h => h.2 mem⟩
    rintro rfl
    cases ramp

theorem laneRequest_of_undefined (reached : s.MayName st n) (mode : s.mode ≠ .profile)
    (number : laneNumberOk n = true) (undefined : s.lanes.get n = none) :
    laneRequest st (u8 n) s k = refuse s .unknown := by
  obtain ⟨station, passes⟩ := reached.passes
  simp [laneRequest, station, mode, natOf_field_u8 (laneNumberOk_small number), number, passes, undefined]

theorem laneRequest_of_lane (reached : s.MayName st n) (mode : s.mode ≠ .profile)
    (number : laneNumberOk n = true) {l : Lane} (lane : s.lanes.get n = some l) :
    laneRequest st (u8 n) s k = k n l := by
  obtain ⟨station, passes⟩ := reached.passes
  simp [laneRequest, station, mode, natOf_field_u8 (laneNumberOk_small number), number, passes, lane]

end

/-- The three requests for one lane. -/
theorem requestOf_lane {c : Instr} {code : Nat} {st : Station} (h : requestOf c = some (code, st))
    (hc : code = 0x40 ∨ code = 0x41 ∨ code = 0x42) : ∃ k : State → Nat → Lane → Taken,
      ∀ s, exec c s = s.takeKind st code fun st p s => laneRequest st p s (k s) := by
  cases c
  case closeLane => obtain ⟨rfl, rfl⟩ := request_eq h; exact ⟨setClosed true, fun _ => rfl⟩
  case openLane => obtain ⟨rfl, rfl⟩ := request_eq h; exact ⟨setClosed false, fun _ => rfl⟩
  case verify => obtain ⟨rfl, rfl⟩ := request_eq h; exact ⟨verifyLane, fun _ => rfl⟩
  all_goals
    simp only [requestOf, Option.some.injEq, Prod.mk.injEq, reduceCtorEq] at h <;> omega

/-- Settles O4: authority is each handler's first check, but for the reach of a ramp station, which a lane
request checks once its lane number is in range. -/
theorem authorityIsCheckedFirst : Obligations.AuthorityIsCheckedFirst := by
  refine ⟨fun c code st s p f request offers ok authority => ?_,
    fun c code st s n f request hc offers ok mode number ramp unreached => ?_⟩
  · obtain ⟨handle, taken, opens⟩ := requestOf_opens request
    exact .of_handle (taken s) offers ok (opens.authority authority)
  · obtain ⟨k, taken⟩ := requestOf_lane request hc
    exact .of_handle (taken s) offers ok (laneRequest_of_unreached (s := s.popMailbox st) ramp mode number unreached)

end Sys2Proof.Machine

/-! Numbers out of range and undefined records (spec/01 R15); O7. -/

namespace Sys2Proof.Machine

theorem rampNumberOk_small {r : Nat} (h : rampNumberOk r = true) : r < 256 := by
  have four : Config.rampCount = 4 := rfl
  simp only [rampNumberOk, Bool.and_eq_true, decide_eq_true_eq] at h
  omega

theorem sectionNumberOk_small {n : Nat} (h : sectionNumberOk n = true) : n < 256 := by
  simp [sectionNumberOk] at h
  omega

section
variable {s : State} {n m : Nat}

/-! SET_PRIORITY and READ_LANE -/

theorem handleSetPriority_of_number_out (mode : s.mode ≠ .profile) (small : n < 256) (out : laneNumberOk n = false) :
    handleSetPriority .yard (u8 n ++ u8 m) s = refuseAt s 1 := by
  simp [handleSetPriority, mode, natOf_field_u8_front small, out]

theorem handleSetPriority_of_level_out (mode : s.mode ≠ .profile) (number : laneNumberOk n = true) (small : m < 256)
    (out : 7 < m) : handleSetPriority .yard (u8 n ++ u8 m) s = refuseAt s 2 := by
  simp [handleSetPriority, mode, natOf_field_u8_front (laneNumberOk_small number), natOf_field_u8_second n small,
    number, out]

theorem handleSetPriority_of_undefined (mode : s.mode ≠ .profile) (number : laneNumberOk n = true) (level : m ≤ 7)
    (undefined : s.lanes.get n = none) : handleSetPriority .yard (u8 n ++ u8 m) s = refuse s .unknown := by
  simp [handleSetPriority, mode, natOf_field_u8_front (laneNumberOk_small number),
    natOf_field_u8_second n (show m < 256 by omega), number, level.not_gt, undefined]

theorem handleReadLane_of_number_out (st : Station) (mode : s.mode ≠ .profile) (small : n < 256)
    (out : laneNumberOk n = false) : handleReadLane st (u8 n ++ u8 m) s = refuseAt s 1 := by
  simp [handleReadLane, mode, natOf_field_u8_front small, out]

theorem handleReadLane_of_page_out (st : Station) (mode : s.mode ≠ .profile) (number : laneNumberOk n = true)
    (small : m < 256) (out : 6 < m) : handleReadLane st (u8 n ++ u8 m) s = refuseAt s 2 := by
  simp [handleReadLane, mode, natOf_field_u8_front (laneNumberOk_small number), natOf_field_u8_second n small,
    number, out]

theorem handleReadLane_of_undefined (st : Station) (mode : s.mode ≠ .profile) (number : laneNumberOk n = true)
    (page : m ≤ 6) (undefined : s.lanes.get n = none) :
    handleReadLane st (u8 n ++ u8 m) s = refuse s .unknown := by
  simp [handleReadLane, mode, natOf_field_u8_front (laneNumberOk_small number),
    natOf_field_u8_second n (show m < 256 by omega), number, page.not_gt, undefined]

/-! Ramps -/

theorem handleSetMask_of_number_out (mode : s.mode ≠ .profile) (small : n < 256) (out : rampNumberOk n = false) :
    handleSetMask .yard (u8 n ++ u8 m) s = refuseAt s 1 := by
  simp [handleSetMask, mode, natOf_field_u8_front small, out]

theorem handleSetMask_of_mask_out (mode : s.mode ≠ .profile) (number : rampNumberOk n = true) (small : m < 256)
    (out : 7 < m) : handleSetMask .yard (u8 n ++ u8 m) s = refuseAt s 2 := by
  simp [handleSetMask, mode, natOf_field_u8_front (rampNumberOk_small number), natOf_field_u8_second n small,
    number, out]

theorem handleSetMask_of_unfitted (mode : s.mode ≠ .profile) (number : rampNumberOk n = true) (mask : m ≤ 7)
    (unfitted : s.fittedRamp n = none) : handleSetMask .yard (u8 n ++ u8 m) s = refuse s .unknown := by
  simp [handleSetMask, mode, natOf_field_u8_front (rampNumberOk_small number),
    natOf_field_u8_second n (show m < 256 by omega), number, mask.not_gt, unfitted]

theorem setSuspended_of_number_out (flag : Bool) (mode : s.mode ≠ .profile) (small : n < 256)
    (out : rampNumberOk n = false) : setSuspended flag .loading (u8 n) s = refuseAt s 1 := by
  simp [setSuspended, mode, natOf_field_u8 small, out]

theorem setSuspended_of_unfitted (flag : Bool) (mode : s.mode ≠ .profile) (number : rampNumberOk n = true)
    (unfitted : s.fittedRamp n = none) : setSuspended flag .loading (u8 n) s = refuse s .unknown := by
  simp [setSuspended, mode, natOf_field_u8 (rampNumberOk_small number), number, unfitted]

theorem requestOf_suspend {c : Instr} {code : Nat} (h : requestOf c = some (code, .loading))
    (hc : code = 0x11 ∨ code = 0x12) :
    ∃ flag, ∀ s, exec c s = s.takeKind .loading code (setSuspended flag) := by
  cases c
  case suspendRamp => obtain ⟨rfl, rfl⟩ := request_eq h; exact ⟨true, fun _ => rfl⟩
  case resumeRamp => obtain ⟨rfl, rfl⟩ := request_eq h; exact ⟨false, fun _ => rfl⟩
  all_goals
    simp only [requestOf, Option.some.injEq, Prod.mk.injEq, reduceCtorEq] at h <;> omega

/-! Sections -/

theorem sectionRequest_of_undefined {len : Nat} {shown : Sect → List Byte} {k : Nat → Sect → Taken} {p : List Byte}
    (mode : s.mode ≠ .profile) (length : p.length = len) (names : natOf (field p 0 1) = n)
    (number : sectionNumberOk n = true) (undefined : s.fittedSection n = none) :
    sectionRequest .loading p s len true shown k = refuse s .unknown := by
  simp [sectionRequest, mode, length, names, number, undefined]

theorem requestOf_section {c : Instr} {code : Nat} (h : requestOf c = some (code, .loading))
    (hc : code = 0x14 ∨ code = 0x15) : ∃ (shown : Sect → List Byte) (k : State → Nat → Sect → Taken),
      ∀ s, exec c s = s.takeKind .loading code fun st p s => sectionRequest st p s 1 true shown (k s) := by
  cases c
  case cancelMove => obtain ⟨rfl, rfl⟩ := request_eq h; exact ⟨_, cancelSection, fun _ => rfl⟩
  case clearFault => obtain ⟨rfl, rfl⟩ := request_eq h; exact ⟨_, clearSection, fun _ => rfl⟩
  all_goals
    simp only [requestOf, Option.some.injEq, Prod.mk.injEq, reduceCtorEq] at h <;> omega

theorem positionOf_positionCode (p : Position) : positionOf (positionCode (some p)) = some p := by
  cases p <;> rfl

theorem handleMove_of_undefined (p : Position) (mode : s.mode ≠ .profile) (number : sectionNumberOk n = true)
    (undefined : s.fittedSection n = none) :
    handleMove .loading (u8 n ++ u8 (positionCode (some p))) s = refuse s .unknown := by
  have small : positionCode (some p) < 256 := by cases p <;> decide
  unfold handleMove
  rw [natOf_field_u8_second n small, positionOf_positionCode]
  exact sectionRequest_of_undefined mode rfl (natOf_field_u8_front (sectionNumberOk_small number) _) number undefined

/-! ARRIVE and UNLASH -/

theorem requestOf_ramp {c : Instr} {code : Nat} {st : Station} (h : requestOf c = some (code, st))
    (hc : code = 0x30 ∨ code = 0x34) : ∃ handle, (∀ s, exec c s = s.takeKind st code handle) ∧
      ∀ (ramp : Nat) (p : List Byte) (s : State), rampOf st = some ramp → s.mode = .run → s.fittedRamp ramp = none →
        handle st p s = refuse s .reach := by
  cases c
  case arrive =>
    obtain ⟨rfl, rfl⟩ := request_eq h
    exact ⟨_, fun _ => rfl, fun ramp p s station mode unfitted => by simp [handleArrive, station, mode, unfitted]⟩
  case unlash =>
    obtain ⟨rfl, rfl⟩ := request_eq h
    exact ⟨_, fun _ => rfl, fun ramp p s station mode unfitted => by simp [handleUnlash, station, mode, unfitted]⟩
  all_goals
    simp only [requestOf, Option.some.injEq, Prod.mk.injEq, reduceCtorEq] at h <;> omega

end

/-- Settles O7. -/
theorem undefinedNumbersAreRefused : Obligations.UndefinedNumbersAreRefused := by
  unfold Obligations.UndefinedNumbersAreRefused
  refine ⟨?lane, ?priority, ?readLane, ?mask, ?suspend, ?sections, ?move, ?reach, fun s ok mode =>
    ⟨?laneOut, ?priorityOut, ?readLaneOut, ?maskOut, ?suspendOut⟩⟩
  case lane =>
    intro c code st s n f request hc offers ok mode number reached undefined
    obtain ⟨k, taken⟩ := requestOf_lane request hc
    exact .of_handle (taken s) offers ok
      (laneRequest_of_undefined (s := s.popMailbox st) reached mode number undefined)
  case priority =>
    intro s n level f offers ok mode number range undefined
    exact .of_handle (handle := handleSetPriority) rfl offers ok
      (handleSetPriority_of_undefined (s := s.popMailbox .yard) mode number range undefined)
  case readLane =>
    intro st s n page f offers ok mode number range undefined
    exact .of_handle (handle := handleReadLane) rfl offers ok
      (handleReadLane_of_undefined (s := s.popMailbox st) st mode number range undefined)
  case mask =>
    intro s r mask f offers ok mode number range unfitted
    exact .of_handle (handle := handleSetMask) rfl offers ok
      (handleSetMask_of_unfitted (s := s.popMailbox .yard) mode number range unfitted)
  case suspend =>
    intro c code s r f request hc offers ok mode number unfitted
    obtain ⟨flag, taken⟩ := requestOf_suspend request hc
    exact .of_handle (taken s) offers ok
      (setSuspended_of_unfitted (s := s.popMailbox .loading) flag mode number unfitted)
  case sections =>
    intro c code s n f request hc offers ok mode number undefined
    obtain ⟨shown, k, taken⟩ := requestOf_section request hc
    exact .of_handle (taken s) offers ok (sectionRequest_of_undefined (s := s.popMailbox .loading) mode rfl
      (natOf_field_u8 (sectionNumberOk_small number)) number undefined)
  case move =>
    intro s n p f offers ok mode number undefined
    exact .of_handle (handle := handleMove) rfl offers ok
      (handleMove_of_undefined (s := s.popMailbox .loading) p mode number undefined)
  case reach =>
    intro c code st ramp s p f request hc offers ok mode station unfitted
    obtain ⟨handle, taken, refused⟩ := requestOf_ramp request hc
    exact .of_handle (taken s) offers ok (refused ramp p (s.popMailbox st) station mode unfitted)
  case laneOut =>
    intro c code st n f request hc station offers small out
    obtain ⟨k, taken⟩ := requestOf_lane request hc
    exact .of_handle (taken s) offers ok (laneRequest_of_out (s := s.popMailbox st) station mode small out)
  case priorityOut =>
    intro n level f offers smallNumber smallLevel
    exact ⟨fun out => .of_handle (handle := handleSetPriority) rfl offers ok
        (handleSetPriority_of_number_out (s := s.popMailbox .yard) mode smallNumber out),
      fun number out => .of_handle (handle := handleSetPriority) rfl offers ok
        (handleSetPriority_of_level_out (s := s.popMailbox .yard) mode number smallLevel out)⟩
  case readLaneOut =>
    intro st n page f offers smallNumber smallPage
    exact ⟨fun out => .of_handle (handle := handleReadLane) rfl offers ok
        (handleReadLane_of_number_out (s := s.popMailbox st) st mode smallNumber out),
      fun number out => .of_handle (handle := handleReadLane) rfl offers ok
        (handleReadLane_of_page_out (s := s.popMailbox st) st mode number smallPage out)⟩
  case maskOut =>
    intro r mask f offers smallNumber smallMask
    exact ⟨fun out => .of_handle (handle := handleSetMask) rfl offers ok
        (handleSetMask_of_number_out (s := s.popMailbox .yard) mode smallNumber out),
      fun number out => .of_handle (handle := handleSetMask) rfl offers ok
        (handleSetMask_of_mask_out (s := s.popMailbox .yard) mode number smallMask out)⟩
  case suspendOut =>
    intro c code r f request hc offers small out
    obtain ⟨flag, taken⟩ := requestOf_suspend request hc
    exact .of_handle (taken s) offers ok
      (setSuspended_of_number_out (s := s.popMailbox .loading) flag mode small out)

end Sys2Proof.Machine

/-! Every request taken gets its one reply (spec/09 R152, spec/10 R159); O9. -/

namespace Sys2Proof.Machine

/-! What a handler answers -/

/-- ACK or REFUSE. -/
def Reply.plain : Reply → Bool
  | .ack _ => true
  | .refuse _ _ => true
  | .refuseField _ _ _ => true
  | .assign _ _ _ _ => false
  | .wait _ _ => false

section
variable {st : Station} {p : List Byte} {s : State}

theorem handleDefLane_plain : (handleDefLane st p s).reply.plain = true := by
  unfold handleDefLane defOpens removeRecordForm
  dsimp only
  repeat' split
  all_goals rfl

theorem handleDefZone_plain : (handleDefZone st p s).reply.plain = true := by
  unfold handleDefZone defOpens removeRecordForm
  dsimp only
  repeat' split
  all_goals rfl

theorem handleDefRamp_plain : (handleDefRamp st p s).reply.plain = true := by
  unfold handleDefRamp defOpens removeRecordForm
  dsimp only
  repeat' split
  all_goals rfl

theorem handleDefSection_plain : (handleDefSection st p s).reply.plain = true := by
  unfold handleDefSection defOpens removeRecordForm
  dsimp only
  repeat' split
  all_goals rfl

theorem handleDefShip_plain : (handleDefShip st p s).reply.plain = true := by
  unfold handleDefShip defOpens
  dsimp only
  repeat' split
  all_goals rfl

theorem handleSeal_plain : (handleSeal st p s).reply.plain = true := by
  unfold handleSeal
  repeat' split
  all_goals rfl

theorem handleClearPlan_plain : (handleClearPlan st p s).reply.plain = true := by
  unfold handleClearPlan
  repeat' split
  all_goals rfl

theorem handleBand_plain : (handleBand st p s).reply.plain = true := by
  unfold handleBand
  dsimp only
  repeat' split
  all_goals rfl

theorem handleHeelModel_plain : (handleHeelModel st p s).reply.plain = true := by
  unfold handleHeelModel
  dsimp only
  repeat' split
  all_goals rfl

theorem handleTanks_plain : (handleTanks st p s).reply.plain = true := by
  unfold handleTanks
  dsimp only
  repeat' split
  all_goals rfl

theorem handleReleaseStop_plain : (handleReleaseStop st p s).reply.plain = true := by
  unfold handleReleaseStop
  dsimp only
  repeat' split
  all_goals rfl

theorem handleTimeout_plain : (handleTimeout st p s).reply.plain = true := by
  unfold handleTimeout
  dsimp only
  repeat' split
  all_goals rfl

theorem handleCutoff_plain : (handleCutoff st p s).reply.plain = true := by
  unfold handleCutoff
  dsimp only
  repeat' split
  all_goals rfl

theorem handleClock_plain : (handleClock st p s).reply.plain = true := by
  unfold handleClock
  dsimp only
  repeat' split
  all_goals rfl

theorem handleResume_plain : (handleResume st p s).reply.plain = true := by
  unfold handleResume
  dsimp only
  repeat' split
  all_goals rfl

theorem handleLinkReset_plain : (handleLinkReset st p s).reply.plain = true := by
  unfold handleLinkReset
  dsimp only
  repeat' split
  all_goals rfl

theorem handleSuspendRamp_plain : (handleSuspendRamp st p s).reply.plain = true := by
  unfold handleSuspendRamp setSuspended
  dsimp only
  repeat' split
  all_goals rfl

theorem handleResumeRamp_plain : (handleResumeRamp st p s).reply.plain = true := by
  unfold handleResumeRamp setSuspended
  dsimp only
  repeat' split
  all_goals rfl

theorem handleMove_plain : (handleMove st p s).reply.plain = true := by
  unfold handleMove sectionRequest moveSection startMove
  dsimp only
  repeat' split
  all_goals rfl

theorem handleCancelMove_plain : (handleCancelMove st p s).reply.plain = true := by
  unfold handleCancelMove sectionRequest cancelSection
  dsimp only
  repeat' split
  all_goals rfl

theorem handleClearFault_plain : (handleClearFault st p s).reply.plain = true := by
  unfold handleClearFault sectionRequest clearSection readFault
  dsimp only
  repeat' split
  all_goals rfl

theorem handleAnnounce_plain : (handleAnnounce st p s).reply.plain = true := by
  unfold handleAnnounce
  dsimp only
  repeat' split
  all_goals rfl

theorem handleWithdraw_plain : (handleWithdraw st p s).reply.plain = true := by
  unfold handleWithdraw
  repeat' split
  all_goals rfl

theorem handleSetPriority_plain : (handleSetPriority st p s).reply.plain = true := by
  unfold handleSetPriority
  dsimp only
  repeat' split
  all_goals rfl

theorem handleSetMask_plain : (handleSetMask st p s).reply.plain = true := by
  unfold handleSetMask
  dsimp only
  repeat' split
  all_goals rfl

theorem handleLashed_plain : (handleLashed st p s).reply.plain = true := by
  unfold handleLashed confirmation laneAndBooking lashedOn stowOnTime lateLashed
  dsimp only
  repeat' split
  all_goals rfl

theorem handleBackout_plain : (handleBackout st p s).reply.plain = true := by
  unfold handleBackout confirmation laneAndBooking backoutOn backOutLoad
  dsimp only
  repeat' split
  all_goals rfl

theorem handleSendBack_plain : (handleSendBack st p s).reply.plain = true := by
  unfold handleSendBack
  repeat' split
  all_goals rfl

theorem unlashFound_plain {ramp : Nat} {row : Ramp} {f : Found} :
    (unlashFound s ramp row f).reply.plain = true := by
  unfold unlashFound
  dsimp only
  repeat' split
  all_goals rfl

theorem handleUnlash_plain : (handleUnlash st p s).reply.plain = true := by
  unfold handleUnlash
  repeat' split
  any_goals rfl
  exact unlashFound_plain

theorem handleOffloaded_plain : (handleOffloaded st p s).reply.plain = true := by
  unfold handleOffloaded confirmation heldBooking offloadOnTime offloadLate
  dsimp only
  repeat' split
  all_goals rfl

theorem handleKeep_plain : (handleKeep st p s).reply.plain = true := by
  unfold handleKeep confirmation heldBooking keepAboard
  dsimp only
  repeat' split
  all_goals rfl

theorem handleCloseLane_plain : (handleCloseLane st p s).reply.plain = true := by
  unfold handleCloseLane laneRequest setClosed
  dsimp only
  repeat' split
  all_goals rfl

theorem handleOpenLane_plain : (handleOpenLane st p s).reply.plain = true := by
  unfold handleOpenLane laneRequest setClosed
  dsimp only
  repeat' split
  all_goals rfl

theorem handleVerify_plain : (handleVerify st p s).reply.plain = true := by
  unfold handleVerify laneRequest verifyLane
  dsimp only
  repeat' split
  all_goals rfl

theorem handleReadLane_plain : (handleReadLane st p s).reply.plain = true := by
  unfold handleReadLane
  dsimp only
  repeat' split
  all_goals rfl

theorem handleReadUnit_plain : (handleReadUnit st p s).reply.plain = true := by
  unfold handleReadUnit
  repeat' split
  all_goals rfl

theorem handleReadAccount_plain : (handleReadAccount st p s).reply.plain = true := by
  unfold handleReadAccount
  dsimp only
  repeat' split
  all_goals rfl

theorem handleReadState_plain : (handleReadState st p s).reply.plain = true := by
  unfold handleReadState
  dsimp only
  repeat' split
  all_goals rfl

theorem handleIdent_plain : (handleIdent st p s).reply.plain = true := by
  unfold handleIdent
  repeat' split
  all_goals rfl

theorem handleSubscribe_plain : (handleSubscribe st p s).reply.plain = true := by
  unfold handleSubscribe
  dsimp only
  repeat' split
  all_goals rfl

end

/-- What every handler leaves for the end of its event: an ACK or REFUSE, or for ARRIVE an ASSIGN or WAIT, and
links as they were but for the one a LINK_RESET names. -/
structure Leaves (code : Nat) (p : List Byte) (st : Station) (s : State) (k : Taken) : Prop where
  reply : code = 0x30 ∨ k.reply.plain = true
  links : ∀ o, (o ≠ st → code = 0x10 → stationOf (natOf (field p 0 1)) ≠ some o) →
    k.state.links.get o = s.links.get o

theorem Leaves.of_lawful {code : Nat} {p : List Byte} {st : Station} {s : State} {k : Taken} (h : k.Lawful s)
    (plain : code = 0x30 ∨ k.reply.plain = true) : Leaves code p st s k :=
  ⟨plain, fun o _ => by rw [h.links]⟩

theorem handleLinkReset_leaves (p : List Byte) (st : Station) (s : State) :
    Leaves 0x10 p st s (handleLinkReset st p s) := by
  refine ⟨.inr handleLinkReset_plain, fun o other => ?_⟩
  by_cases e : o = st
  · exact e ▸ (handleLinkReset_changes st p s).2
  · unfold handleLinkReset
    dsimp only
    split
    · rfl
    · split
      · rfl
      · split
        · rfl
        · rename_i target named
          refine s.resetLink_get_of_ne fun same => other e rfl ?_
          unfold resettable at named
          split at named
          · cases named
          · exact same ▸ named

theorem requestOf_leaves {c : Instr} {code : Nat} {st : Station} (h : requestOf c = some (code, st)) :
    ∃ handle, (∀ s, exec c s = s.takeKind st code handle) ∧
      ∀ p (s : State), s.working = true → Leaves code p st s (handle st p s) := by
  cases c
  case linkReset =>
    obtain ⟨rfl, rfl⟩ := request_eq h
    exact ⟨_, fun _ => rfl, fun p s _ => handleLinkReset_leaves p _ s⟩
  case arrive =>
    obtain ⟨rfl, rfl⟩ := request_eq h
    exact ⟨_, fun _ => rfl, fun p s _ => .of_lawful (handleArrive_lawful _ p s) (.inl rfl)⟩
  case defLane =>
    obtain ⟨rfl, rfl⟩ := request_eq h
    exact ⟨_, fun _ => rfl, fun p s w => .of_lawful (handleDefLane_lawful _ p s) (.inr handleDefLane_plain)⟩
  case defZone =>
    obtain ⟨rfl, rfl⟩ := request_eq h
    exact ⟨_, fun _ => rfl, fun p s w => .of_lawful (handleDefZone_lawful _ p s) (.inr handleDefZone_plain)⟩
  case defRamp =>
    obtain ⟨rfl, rfl⟩ := request_eq h
    exact ⟨_, fun _ => rfl, fun p s w => .of_lawful (handleDefRamp_lawful _ p s) (.inr handleDefRamp_plain)⟩
  case defSection =>
    obtain ⟨rfl, rfl⟩ := request_eq h
    exact ⟨_, fun _ => rfl, fun p s w => .of_lawful (handleDefSection_lawful _ p s) (.inr handleDefSection_plain)⟩
  case defShip =>
    obtain ⟨rfl, rfl⟩ := request_eq h
    exact ⟨_, fun _ => rfl, fun p s w => .of_lawful (handleDefShip_lawful _ p s) (.inr handleDefShip_plain)⟩
  case sealPlan =>
    obtain ⟨rfl, rfl⟩ := request_eq h
    exact ⟨_, fun _ => rfl, fun p s w => .of_lawful (handleSeal_lawful _ p s) (.inr handleSeal_plain)⟩
  case clearPlan =>
    obtain ⟨rfl, rfl⟩ := request_eq h
    exact ⟨_, fun _ => rfl, fun p s w => .of_lawful (handleClearPlan_lawful _ p w) (.inr handleClearPlan_plain)⟩
  case band =>
    obtain ⟨rfl, rfl⟩ := request_eq h
    exact ⟨_, fun _ => rfl, fun p s w => .of_lawful (handleBand_lawful _ p s) (.inr handleBand_plain)⟩
  case heelModel =>
    obtain ⟨rfl, rfl⟩ := request_eq h
    exact ⟨_, fun _ => rfl, fun p s w => .of_lawful (handleHeelModel_lawful _ p s) (.inr handleHeelModel_plain)⟩
  case tanks =>
    obtain ⟨rfl, rfl⟩ := request_eq h
    exact ⟨_, fun _ => rfl, fun p s w => .of_lawful (handleTanks_lawful _ p s) (.inr handleTanks_plain)⟩
  case releaseStop =>
    obtain ⟨rfl, rfl⟩ := request_eq h
    exact ⟨_, fun _ => rfl, fun p s w => .of_lawful (handleReleaseStop_lawful _ p s) (.inr handleReleaseStop_plain)⟩
  case timeout =>
    obtain ⟨rfl, rfl⟩ := request_eq h
    exact ⟨_, fun _ => rfl, fun p s w => .of_lawful (handleTimeout_lawful _ p s) (.inr handleTimeout_plain)⟩
  case cutoff =>
    obtain ⟨rfl, rfl⟩ := request_eq h
    exact ⟨_, fun _ => rfl, fun p s w => .of_lawful (handleCutoff_lawful _ p w) (.inr handleCutoff_plain)⟩
  case clock =>
    obtain ⟨rfl, rfl⟩ := request_eq h
    exact ⟨_, fun _ => rfl, fun p s w => .of_lawful (handleClock_lawful _ p w) (.inr handleClock_plain)⟩
  case resume =>
    obtain ⟨rfl, rfl⟩ := request_eq h
    exact ⟨_, fun _ => rfl, fun p s w => .of_lawful (handleResume_lawful _ p s) (.inr handleResume_plain)⟩
  case suspendRamp =>
    obtain ⟨rfl, rfl⟩ := request_eq h
    exact ⟨_, fun _ => rfl, fun p s w => .of_lawful (setSuspended_lawful true _ _ _) (.inr handleSuspendRamp_plain)⟩
  case resumeRamp =>
    obtain ⟨rfl, rfl⟩ := request_eq h
    exact ⟨_, fun _ => rfl, fun p s w => .of_lawful (setSuspended_lawful false _ _ _) (.inr handleResumeRamp_plain)⟩
  case move =>
    obtain ⟨rfl, rfl⟩ := request_eq h
    exact ⟨_, fun _ => rfl, fun p s w => .of_lawful (sectionRequest_lawful fun _ _ hc => moveSection_lawful _ hc) (.inr handleMove_plain)⟩
  case cancelMove =>
    obtain ⟨rfl, rfl⟩ := request_eq h
    exact ⟨_, fun _ => rfl, fun p s w => .of_lawful (sectionRequest_lawful fun _ _ hc => cancelSection_lawful hc) (.inr handleCancelMove_plain)⟩
  case clearFault =>
    obtain ⟨rfl, rfl⟩ := request_eq h
    exact ⟨_, fun _ => rfl, fun p s w => .of_lawful (sectionRequest_lawful fun _ _ hc => clearSection_lawful hc) (.inr handleClearFault_plain)⟩
  case announce =>
    obtain ⟨rfl, rfl⟩ := request_eq h
    exact ⟨_, fun _ => rfl, fun p s w => .of_lawful (handleAnnounce_lawful _ p s) (.inr handleAnnounce_plain)⟩
  case withdraw =>
    obtain ⟨rfl, rfl⟩ := request_eq h
    exact ⟨_, fun _ => rfl, fun p s w => .of_lawful (handleWithdraw_lawful _ p s) (.inr handleWithdraw_plain)⟩
  case setPriority =>
    obtain ⟨rfl, rfl⟩ := request_eq h
    exact ⟨_, fun _ => rfl, fun p s w => .of_lawful (handleSetPriority_lawful _ p s) (.inr handleSetPriority_plain)⟩
  case setMask =>
    obtain ⟨rfl, rfl⟩ := request_eq h
    exact ⟨_, fun _ => rfl, fun p s w => .of_lawful (handleSetMask_lawful _ p s) (.inr handleSetMask_plain)⟩
  case lashed =>
    obtain ⟨rfl, rfl⟩ := request_eq h
    exact ⟨_, fun _ => rfl, fun p s w => .of_lawful (handleLashed_lawful _ p s) (.inr handleLashed_plain)⟩
  case backout =>
    obtain ⟨rfl, rfl⟩ := request_eq h
    exact ⟨_, fun _ => rfl, fun p s w => .of_lawful (handleBackout_lawful _ p s) (.inr handleBackout_plain)⟩
  case sendBack =>
    obtain ⟨rfl, rfl⟩ := request_eq h
    exact ⟨_, fun _ => rfl, fun p s w => .of_lawful (handleSendBack_lawful _ p s) (.inr handleSendBack_plain)⟩
  case unlash =>
    obtain ⟨rfl, rfl⟩ := request_eq h
    exact ⟨_, fun _ => rfl, fun p s w => .of_lawful (handleUnlash_lawful _ p s) (.inr handleUnlash_plain)⟩
  case offloaded =>
    obtain ⟨rfl, rfl⟩ := request_eq h
    exact ⟨_, fun _ => rfl, fun p s w => .of_lawful (handleOffloaded_lawful _ p s) (.inr handleOffloaded_plain)⟩
  case keep =>
    obtain ⟨rfl, rfl⟩ := request_eq h
    exact ⟨_, fun _ => rfl, fun p s w => .of_lawful (handleKeep_lawful _ p s) (.inr handleKeep_plain)⟩
  case closeLane =>
    obtain ⟨rfl, rfl⟩ := request_eq h
    exact ⟨_, fun _ => rfl, fun p s w => .of_lawful (laneRequest_lawful fun n l _ => setClosed_lawful true _ n l) (.inr handleCloseLane_plain)⟩
  case openLane =>
    obtain ⟨rfl, rfl⟩ := request_eq h
    exact ⟨_, fun _ => rfl, fun p s w => .of_lawful (laneRequest_lawful fun n l _ => setClosed_lawful false _ n l) (.inr handleOpenLane_plain)⟩
  case verify =>
    obtain ⟨rfl, rfl⟩ := request_eq h
    exact ⟨_, fun _ => rfl, fun p s w => .of_lawful (laneRequest_lawful fun _ _ lane => verifyLane_lawful lane) (.inr handleVerify_plain)⟩
  case readLane =>
    obtain ⟨rfl, rfl⟩ := request_eq h
    exact ⟨_, fun _ => rfl, fun p s w => .of_lawful (handleReadLane_lawful _ p s) (.inr handleReadLane_plain)⟩
  case readUnit =>
    obtain ⟨rfl, rfl⟩ := request_eq h
    exact ⟨_, fun _ => rfl, fun p s w => .of_lawful (handleReadUnit_lawful _ p s) (.inr handleReadUnit_plain)⟩
  case readAccount =>
    obtain ⟨rfl, rfl⟩ := request_eq h
    exact ⟨_, fun _ => rfl, fun p s w => .of_lawful (handleReadAccount_lawful _ p s) (.inr handleReadAccount_plain)⟩
  case readState =>
    obtain ⟨rfl, rfl⟩ := request_eq h
    exact ⟨_, fun _ => rfl, fun p s w => .of_lawful (handleReadState_lawful _ p s) (.inr handleReadState_plain)⟩
  case ident =>
    obtain ⟨rfl, rfl⟩ := request_eq h
    exact ⟨_, fun _ => rfl, fun p s w => .of_lawful (handleIdent_lawful _ p s) (.inr handleIdent_plain)⟩
  case subscribe =>
    obtain ⟨rfl, rfl⟩ := request_eq h
    exact ⟨_, fun _ => rfl, fun p s w => .of_lawful (handleSubscribe_lawful _ p s) (.inr handleSubscribe_plain)⟩
  all_goals cases h

/-! The end of the event -/

theorem State.passIf_addsNotices (s : State) (run : Bool) (o : Station) :
    (s.links.get o).AddsNotices ((s.passIf run).links.get o) := by
  unfold State.passIf
  split
  · have := State.sendAll_addsNotices s.runPass.1 s.runPass.2 o
    rwa [s.runPass_keeps.links] at this
  · exact Link.AddsNotices.refl _

/-- The end of an event adds notices alone to every link, from the reply on. -/
theorem State.finish_addsNotices (s1 s0 : State) (r : Option (Station × Frame)) (head tail : List Notice)
    (named : Bool) (o : Station) :
    ((s1.answer r).links.get o).AddsNotices ((s1.finish s0 r head tail named).links.get o) := by
  have answered : ((s1.reviseLanes s0).answer r).links = (s1.answer r).links := by
    cases r with
    | none => simp [State.answer]
    | some p => simp [State.answer, State.reply, State.setLink]
  have reported : ((s1.answer r).links.get o).AddsNotices ((s1.report s0 r head tail).links.get o) :=
    answered ▸ State.sendAll_addsNotices ((s1.reviseLanes s0).answer r) _ o
  have passed := State.passIf_addsNotices (s1.report s0 r head tail) (triggered s0 s1 named) o
  unfold State.finish
  rw [State.settleEvent_get]
  exact (reported.trans passed).trans (Link.release_addsNotices _)

theorem replyFrame_tag (f : Frame) (r : Reply) : (replyFrame f r).tag = f.tag := by
  cases r <;> rfl

theorem replyFrame_head (f : Frame) (r : Reply) : (replyFrame f r).payload.head? = some f.kind := by
  cases r <;> rfl

/-- Settles O9: a handler leaves the links alone, and the end of its event places the reply and adds notices. -/
theorem everyRequestIsAnswered : Obligations.EveryRequestIsAnswered := by
  intro c code st s p f request offers
  obtain ⟨handle, taken, leaves⟩ := requestOf_leaves request
  have left := leaves p (s.popMailbox st) offers.working
  have kind : f.kind = BitVec.ofNat 8 code := by rw [← offers.kind]; simp
  have grown := State.finish_grown (handle st p (s.popMailbox st)).state (s.popMailbox st)
    (some (st, replyFrame f (handle st p (s.popMailbox st)).reply)) (handle st p (s.popMailbox st)).head
    (handle st p (s.popMailbox st)).tail (handle st p (s.popMailbox st)).trigger
  have adds := State.finish_addsNotices (handle st p (s.popMailbox st)).state (s.popMailbox st)
    (some (st, replyFrame f (handle st p (s.popMailbox st)).reply)) (handle st p (s.popMailbox st)).head
    (handle st p (s.popMailbox st)).tail (handle st p (s.popMailbox st)).trigger
  have own : (((handle st p (s.popMailbox st)).state.answer
      (some (st, replyFrame f (handle st p (s.popMailbox st)).reply))).links.get st) =
      { s.links.get st with
        mailbox := (s.links.get st).mailbox.tail
        queue := (s.links.get st).queue ++ [replyFrame f (handle st p (s.popMailbox st)).reply] } := by
    simp [State.answer, left.links st fun h => absurd rfl h]
  refine ⟨_, (handle st p (s.popMailbox st)).reply, (taken s).trans (State.takeKind_offers offers handle rfl),
    ?mailbox, ?queue, replyFrame_tag .., (replyFrame_head ..).trans (congrArg some kind), ?reply,
    fun o ne other => ?others⟩
  case mailbox => rw [(grown st).mailbox, own]
  case queue =>
    have := adds st
    rw [own] at this
    exact this
  case reply =>
    rcases left.reply with arrive | plain
    · split <;> trivial
    · split <;> simp_all [Reply.plain]
  case others =>
    have same : ((handle st p (s.popMailbox st)).state.answer
        (some (st, replyFrame f (handle st p (s.popMailbox st)).reply))).links.get o = s.links.get o := by
      simp [State.answer, ne, left.links o fun _ => other]
    exact same ▸ ⟨grown o, adds o⟩

end Sys2Proof.Machine

/-! Frames on the line (spec/09 R151, spec/12 R170); O21. -/

namespace Sys2Proof.Machine

theorem stationNumber_injective {a b : Station} (h : stationNumber a = stationNumber b) : a = b := by
  have known (st : Station) : stationOf (stationNumber st) = some st := by cases st <;> rfl
  exact Option.some.inj ((known a).symm.trans (h ▸ known b))

theorem stationNumber_small (st : Station) : stationNumber st < 256 := by
  cases st <;> decide

/-- The bytes of a frame, one by one. -/
theorem wireBytes_eq (st : Station) (f : Frame) : wireBytes st f =
    startByte :: BitVec.ofNat 8 f.payload.length ::
      ([BitVec.ofNat 8 (stationNumber st), f.kind, f.tag] ++ f.payload ++
        u16 (crc16 (coveredBytes st f)).toNat) := by
  simp [wireBytes, coveredBytes, u8]

/-! Gathering -/

theorem gather_noise (noise rest : List Byte) (h : ∀ b ∈ noise, b ≠ startByte) :
    gather .hunting (noise ++ rest) = gather .hunting rest := by
  induction noise with
  | nil => rfl
  | cons b noise ih =>
    rw [List.forall_mem_cons] at h
    rw [List.cons_append, gather, receiveByte, if_neg h.1, ih h.2]
    rfl

/-- Behind its length byte a frame is gathered up to its last byte. -/
theorem gather_rest {got rest : List Byte} (known : 2 ≤ got.length) (more : rest ≠ [])
    (length : (got ++ rest).length = 7 + natOf (field got 1 1)) :
    gather (.gathering got) rest = (.hunting, [got ++ rest]) := by
  induction rest generalizing got with
  | nil => exact absurd rfl more
  | cons b rest ih =>
    have long : (got ++ [b]).length ≠ 2 := by simp; omega
    have field_same : field (got ++ [b]) 1 1 = field got 1 1 := by
      simp only [field]
      rw [List.drop_append_of_le_length (by omega), List.take_append_of_le_length (by simp; omega)]
    rw [gather, receiveByte, if_neg (fun h => long h.1), field_same]
    cases rest with
    | nil =>
      rw [if_pos length]
      rfl
    | cons c rest =>
      have short : (got ++ [b]).length ≠ 7 + natOf (field got 1 1) := by
        rw [← length]
        simp
      rw [if_neg short]
      have := ih (got := got ++ [b]) (by simp; omega) (by simp) (by rw [field_same, ← length]; simp)
      dsimp only
      rw [this]
      simp

theorem gather_wireBytes (st : Station) {f : Frame} (short : f.payload.length ≤ 100) :
    gather .hunting (wireBytes st f) = (.hunting, [wireBytes st f]) := by
  have value : natOf [BitVec.ofNat 8 f.payload.length] = f.payload.length := natOf_u8 (by omega)
  have small : (BitVec.ofNat 8 f.payload.length).toNat = f.payload.length := by
    rw [BitVec.toNat_ofNat]; omega
  rw [wireBytes_eq, gather, receiveByte, if_pos rfl, gather, receiveByte]
  dsimp only
  rw [if_neg (by simp [small]; omega), if_neg (by simp; omega)]
  rw [show [startByte] ++ [BitVec.ofNat 8 f.payload.length] = [startByte, BitVec.ofNat 8 f.payload.length] from rfl,
    gather_rest (by simp) (by simp) ?_]
  · rfl
  · rw [show field [startByte, BitVec.ofNat 8 f.payload.length] 1 1 = [BitVec.ofNat 8 f.payload.length] from rfl, value]
    simp
    omega

/-! Reading -/

section
variable (st : Station) (f : Frame)

theorem field_wireBytes_length : field (wireBytes st f) 1 1 = u8 f.payload.length := by
  rw [wireBytes_eq]
  rfl

theorem field_wireBytes_station : field (wireBytes st f) 2 1 = u8 (stationNumber st) := by
  rw [wireBytes_eq]
  rfl

theorem field_wireBytes_payload : field (wireBytes st f) 5 f.payload.length = f.payload := by
  rw [wireBytes_eq]
  simp [field]

theorem field_wireBytes_covered : field (wireBytes st f) 1 (4 + f.payload.length) = coveredBytes st f := by
  have length : (coveredBytes st f).length = 4 + f.payload.length := by simp [coveredBytes]; omega
  rw [wireBytes, ← length]
  simp [field]

theorem field_wireBytes_crc :
    field (wireBytes st f) (5 + f.payload.length) 2 = u16 (crc16 (coveredBytes st f)).toNat := by
  have length : (startByte :: coveredBytes st f).length = 5 + f.payload.length := by simp [coveredBytes]; omega
  rw [wireBytes, ← length]
  simp [field]

theorem wireBytes_length : (wireBytes st f).length = 7 + f.payload.length := by
  rw [wireBytes_eq]
  simp
  omega

variable {st f}

theorem validFrame_wireBytes (short : f.payload.length ≤ 100) (o : Station) :
    validFrame o (wireBytes st f) = if o = st then some f else none := by
  have count : natOf (u8 f.payload.length) = f.payload.length := natOf_u8 (by omega)
  have crc : natOf (u16 (crc16 (coveredBytes st f)).toNat) = (crc16 (coveredBytes st f)).toNat :=
    natOf_u16 (crc16 (coveredBytes st f)).isLt
  have station : natOf (u8 (stationNumber st)) = stationNumber o ↔ o = st := by
    rw [natOf_u8 (stationNumber_small st)]
    exact ⟨fun h => stationNumber_injective h.symm, fun h => by rw [h]⟩
  have kind : (wireBytes st f).getD 3 0 = f.kind := by rw [wireBytes_eq]; rfl
  have tag : (wireBytes st f).getD 4 0 = f.tag := by rw [wireBytes_eq]; rfl
  unfold validFrame
  simp only [field_wireBytes_length, count, field_wireBytes_station, field_wireBytes_payload, field_wireBytes_covered,
    field_wireBytes_crc, wireBytes_length, crc, station, kind, tag, true_and]

end

/-- The check value of the CRC (R170): the register after each digit. -/
theorem crc16_digits : crc16 [0x31, 0x32, 0x33, 0x34, 0x35, 0x36, 0x37, 0x38, 0x39] = 0x29B1 := by
  have digit1 : crcByte 0xFFFF 0x31 = 0xC782 := by decide
  have digit2 : crcByte 0xC782 0x32 = 0x3DBA := by decide
  have digit3 : crcByte 0x3DBA 0x33 = 0x5BCE := by decide
  have digit4 : crcByte 0x5BCE 0x34 = 0x5349 := by decide
  have digit5 : crcByte 0x5349 0x35 = 0x4560 := by decide
  have digit6 : crcByte 0x4560 0x36 = 0x2EF4 := by decide
  have digit7 : crcByte 0x2EF4 0x37 = 0x7718 := by decide
  have digit8 : crcByte 0x7718 0x38 = 0xA12B := by decide
  have digit9 : crcByte 0xA12B 0x39 = 0x29B1 := by decide
  rw [crc16, List.foldl_cons, digit1, List.foldl_cons, digit2, List.foldl_cons, digit3, List.foldl_cons, digit4,
    List.foldl_cons, digit5, List.foldl_cons, digit6, List.foldl_cons, digit7, List.foldl_cons, digit8, List.foldl_cons,
    digit9, List.foldl_nil]

/-- Settles O21. -/
theorem framesSurviveTheLine : Obligations.FramesSurviveTheLine := by
  refine ⟨crc16_digits, fun st f noise short silent => ⟨?_, ?_, fun o ne => ?_⟩⟩
  · rw [gather_noise noise _ silent, gather_wireBytes st short]
  · rw [validFrame_wireBytes short, if_pos rfl]
  · rw [validFrame_wireBytes short, if_neg ne]

end Sys2Proof.Machine

/-! Records and descriptions read back from their bytes (spec/12 R172, R174); O22. -/

namespace Sys2Proof.Machine

/-! Codes -/

theorem directionOf_code (d : Direction) : directionOf (natOf (u8 (directionCode d))) = some d := by
  cases d <;> rfl

theorem flagOf_code (b : Bool) : flagOf (natOf (u8 (flagCode b))) = some b := by
  cases b <;> rfl

theorem kindOf_code (k : UnitKind) : kindOf (natOf (u8 (kindCode k))) = some k := by
  cases k <;> rfl

theorem dgOf_code (g : Option DgGroup) : dgOf (natOf (u8 (dgCode g))) = some g := by
  rcases g with _ | g
  · rfl
  · cases g <;> rfl

theorem kindSetOf_code (k : KindSet) (some_ : (k.trailer || k.rigid || k.car || k.cassette) = true) :
    kindSetOf (natOf (u8 (kindSetCode k))) = some k := by
  obtain ⟨trailer, rigid, car, cassette⟩ := k
  cases trailer <;> cases rigid <;> cases car <;> cases cassette <;> simp at some_ <;> rfl

/-- The section of a relation, where it names one, is one of the six. -/
def Relation.numberOk (r : Relation) : Bool :=
  match r.section? with
  | some n => sectionNumberOk n
  | Option.none => true

theorem relationOf_enc (r : Relation) (ok : r.numberOk = true) :
    relationOf (natOf (field (encRelation r) 0 1)) (natOf (field (encRelation r) 1 1)) = some r := by
  have named (k n : Nat) (small : k < 256) (number : sectionNumberOk n = true) :
      natOf (field (u8 k ++ u8 n) 0 1) = k ∧ natOf (field (u8 k ++ u8 n) 1 1) = n ∧ 1 ≤ n ∧ n ≤ 6 := by
    refine ⟨natOf_field_u8_front small _, natOf_field_u8_second k (sectionNumberOk_small number), ?_⟩
    simpa [sectionNumberOk] using number
  cases r with
  | none => rfl
  | on n =>
    obtain ⟨code, number, low, high⟩ := named 2 n (by decide) ok
    simp [encRelation, relationOf, code, number, low, high, Config.sectionCount]
  | beneath n =>
    obtain ⟨code, number, low, high⟩ := named 3 n (by decide) ok
    simp [encRelation, relationOf, code, number, low, high, Config.sectionCount]

/-! Lanes (Table 1-2) -/

/-- The ranges of Table 1-2, one by one. -/
structure LaneProfile.Ranged (l : LaneProfile) : Prop where
  deck : 1 ≤ l.deck ∧ l.deck ≤ 4
  row : 1 ≤ l.row ∧ l.row ≤ 12
  length : 60 ≤ l.length ∧ l.length ≤ 2400
  closedEnd : l.closedEnd ≤ 2400
  arm : -1600 ≤ l.arm ∧ l.arm ≤ 1600
  baseClearance : 150 ≤ l.baseClearance ∧ l.baseClearance ≤ 700
  massCap : 10 ≤ l.massCap ∧ l.massCap ≤ 9000
  sockets : l.sockets ≤ 8
  kinds : (l.kinds.trailer || l.kinds.rigid || l.kinds.car || l.kinds.cassette) = true
  relation : l.relation.numberOk = true

theorem LaneProfile.rangesOk_iff {l : LaneProfile} : l.rangesOk = true ↔ l.Ranged := by
  unfold LaneProfile.rangesOk
  simp only [Bool.and_eq_true, decide_eq_true_eq, within_iff, Nat.zero_le, true_and]
  constructor
  · rintro ⟨⟨⟨⟨⟨⟨⟨⟨⟨⟨deck, row⟩, length⟩, closedEnd⟩, low⟩, high⟩, clearance⟩, mass⟩, sockets⟩, kinds⟩, relation⟩
    exact ⟨deck, row, length, closedEnd, ⟨low, high⟩, clearance, mass, sockets, kinds, relation⟩
  · rintro ⟨deck, row, length, closedEnd, ⟨low, high⟩, clearance, mass, sockets, kinds, relation⟩
    exact ⟨⟨⟨⟨⟨⟨⟨⟨⟨⟨deck, row⟩, length⟩, closedEnd⟩, low⟩, high⟩, clearance⟩, mass⟩, sockets⟩, kinds⟩, relation⟩

/-- The coded fields of a DEF_LANE payload. -/
structure LaneCodes (p : List Byte) (l : LaneProfile) : Prop where
  direction : directionOf (natOf (field p 7 1)) = some l.direction
  dgPermitted : flagOf (natOf (field p 15 1)) = some l.dgPermitted
  kinds : kindSetOf (natOf (field p 16 1)) = some l.kinds
  relation : relationOf (natOf (field p 17 1)) (natOf (field p 18 1)) = some l.relation

section
variable {l : LaneProfile} (n : Nat)

theorem laneCodes_enc (h : l.Ranged) : LaneCodes (u8 n ++ encLaneProfile l) l where
  direction := directionOf_code l.direction
  dgPermitted := flagOf_code l.dgPermitted
  kinds := kindSetOf_code l.kinds h.kinds
  relation := relationOf_enc l.relation h.relation

theorem readLaneProfile_enc (h : l.Ranged) : readLaneProfile (u8 n ++ encLaneProfile l) = l := by
  have codes := laneCodes_enc n h
  obtain ⟨deck, row, length, closedEnd, arm, clearance, mass, sockets, kinds, relation⟩ := h
  have byte {k v : Nat} (e : field (u8 n ++ encLaneProfile l) k 1 = u8 v) (small : v < 256) :
      natOf (field (u8 n ++ encLaneProfile l) k 1) = v := by rw [e, natOf_u8 small]
  have word {k v : Nat} (e : field (u8 n ++ encLaneProfile l) k 2 = u16 v) (small : v < 65536) :
      natOf (field (u8 n ++ encLaneProfile l) k 2) = v := by rw [e, natOf_u16 small]
  have armed : intOf (field (u8 n ++ encLaneProfile l) 8 2) = l.arm := by
    rw [show field (u8 n ++ encLaneProfile l) 8 2 = i16 l.arm from rfl, intOf_i16 (by omega) (by omega)]
  unfold readLaneProfile
  rw [codes.direction, codes.dgPermitted, codes.kinds, codes.relation, armed,
    byte (k := 1) (v := l.deck) rfl (by omega), byte (k := 2) (v := l.row) rfl (by omega),
    word (k := 3) (v := l.length) rfl (by omega), word (k := 5) (v := l.closedEnd) rfl (by omega),
    word (k := 10) (v := l.baseClearance) rfl (by omega), word (k := 12) (v := l.massCap) rfl (by omega),
    byte (k := 14) (v := l.sockets) rfl (by omega)]
  rfl

theorem laneChecks_enc (h : l.Ranged) :
    firstFailing (laneChecks (u8 n ++ encLaneProfile l)) = if l.fits then none else some 3 := by
  have codes := laneCodes_enc n h
  unfold laneChecks
  rw [readLaneProfile_enc n h, codes.direction, codes.dgPermitted, codes.kinds, codes.relation]
  have in_ {lo hi v : Nat} (k : lo ≤ v ∧ v ≤ hi) : within lo hi v = true := (within_iff ..).mpr k
  simp only [in_ h.deck, in_ h.row, in_ h.length, in_ ⟨Nat.zero_le _, h.closedEnd⟩, in_ h.baseClearance, in_ h.massCap,
    in_ ⟨Nat.zero_le _, h.sockets⟩, h.arm]
  cases l.fits <;> rfl

end

/-! Zones and sections (Tables 1-3, 1-5) -/

theorem readZone_enc (n : Nat) {z : Zone} (h : z.inRange = true) : readZone (u8 n ++ encZone z) = z := by
  simp only [Zone.inRange, Bool.and_eq_true, within_iff, decide_eq_true_eq] at h
  obtain ⟨⟨⟨⟨⟨⟨deck, aft⟩, fore⟩, cap⟩, -⟩, confirmed⟩, pending⟩ := h
  have word {k v : Nat} (e : field (u8 n ++ encZone z) k 2 = u16 v) (small : v < 65536) :
      natOf (field (u8 n ++ encZone z) k 2) = v := by rw [e, natOf_u16 small]
  have first : natOf (field (u8 n ++ encZone z) 1 1) = z.deck := by
    rw [show field (u8 n ++ encZone z) 1 1 = u8 z.deck from rfl, natOf_u8 (by omega)]
  unfold readZone
  rw [first, word (k := 2) (v := z.aft) rfl (by omega), word (k := 4) (v := z.fore) rfl (by omega),
    word (k := 6) (v := z.cap) rfl (by omega), ← confirmed]
  cases z
  simp_all

theorem readClearances_enc (n : Nat) {c : Clearances} (h : c.inRange = true) :
    readClearances (u8 n ++ encClearances c) = c := by
  simp only [Clearances.inRange, Bool.and_eq_true, within_iff] at h
  obtain ⟨⟨⟨⟨⟨⟨⟨⟨⟨aboveRaised, aboveMid⟩, aboveLowered⟩, beneathRaised⟩, beneathMid⟩, beneathLowered⟩, -⟩, -⟩, -⟩, -⟩ := h
  have word {k v : Nat} (e : field (u8 n ++ encClearances c) k 2 = u16 v) (small : v < 65536) :
      natOf (field (u8 n ++ encClearances c) k 2) = v := by rw [e, natOf_u16 small]
  unfold readClearances
  rw [word (k := 1) (v := c.aboveRaised) rfl (by omega), word (k := 3) (v := c.aboveMid) rfl (by omega),
    word (k := 5) (v := c.aboveLowered) rfl (by omega), word (k := 7) (v := c.beneathRaised) rfl (by omega),
    word (k := 9) (v := c.beneathMid) rfl (by omega), word (k := 11) (v := c.beneathLowered) rfl (by omega)]

/-! Unit descriptions (Table 3-1) -/

theorem flagsCode_eq (reefer unannounced : Bool) : flagsCode reefer unannounced ≤ 3 ∧
    (decide (flagsCode reefer unannounced % 2 = 1) = reefer) := by
  cases reefer <;> cases unannounced <;> decide

theorem rawUnit_enc {u : UnitFields} (unannounced : Bool) (h : u.inRange = true) :
    rawUnit (encUnitFields u unannounced) =
      { kind := some u.kind, length := u.length, height := u.height.getD 0, mass := u.mass, dg := some u.dg,
        flags := flagsCode u.reefer unannounced, port := u.port } := by
  have flags := (flagsCode_eq u.reefer unannounced).1
  simp only [UnitFields.inRange, Bool.and_eq_true, within_iff] at h
  obtain ⟨⟨⟨length, height⟩, mass⟩, port⟩ := h
  have tall : u.height.getD 0 < 65536 := by
    cases e : u.height with
    | none => decide
    | some t =>
      rw [e] at height
      simp only [within_iff] at height
      simp
      omega
  have word {k v : Nat} (e : field (encUnitFields u unannounced) k 2 = u16 v) (small : v < 65536) :
      natOf (field (encUnitFields u unannounced) k 2) = v := by rw [e, natOf_u16 small]
  have byte {k v : Nat} (e : field (encUnitFields u unannounced) k 1 = u8 v) (small : v < 256) :
      natOf (field (encUnitFields u unannounced) k 1) = v := by rw [e, natOf_u8 small]
  have kind : kindOf (natOf (field (encUnitFields u unannounced) 0 1)) = some u.kind := kindOf_code u.kind
  have dg : dgOf (natOf (field (encUnitFields u unannounced) 7 1)) = some u.dg := dgOf_code u.dg
  unfold rawUnit
  rw [kind, dg, word (k := 1) (v := u.length) rfl (by omega), word (k := 3) (v := u.height.getD 0) rfl tall,
    word (k := 5) (v := u.mass) rfl (by omega), byte (k := 8) (v := flagsCode u.reefer unannounced) rfl (by omega),
    byte (k := 9) (v := u.port) rfl (by omega)]

/-- A description whose every field passes. -/
theorem badField_none {r : RawUnit} (kind : r.kind.isSome = true) (length : 30 ≤ r.length ∧ r.length ≤ 200)
    (height : r.height = 0 ∨ 100 ≤ r.height ∧ r.height ≤ 500) (mass : 1 ≤ r.mass ∧ r.mass ≤ 700)
    (dg : r.dg.isSome = true) (flags : r.flags ≤ 3) (port : 1 ≤ r.port ∧ r.port ≤ 15) : r.badField = none := by
  unfold RawUnit.badField
  rw [if_neg (by simp [Option.isSome_iff_ne_none.mp kind]), if_neg (by omega), if_neg (by omega), if_neg (by omega),
    if_neg (by simp [Option.isSome_iff_ne_none.mp dg]), if_neg (by omega), if_neg (by omega)]

theorem rawUnit_enc_fields {u : UnitFields} (unannounced : Bool) (h : u.inRange = true) :
    (rawUnit (encUnitFields u unannounced)).badField = none ∧
      (rawUnit (encUnitFields u unannounced)).fields = u := by
  rw [rawUnit_enc unannounced h]
  obtain ⟨flags, reefer⟩ := flagsCode_eq u.reefer unannounced
  simp only [UnitFields.inRange, Bool.and_eq_true, within_iff] at h
  obtain ⟨⟨⟨length, height⟩, mass⟩, port⟩ := h
  obtain ⟨kind, len, tall, weight, dg, cold, harbour⟩ := u
  cases tall with
  | none => exact ⟨badField_none rfl length (.inl rfl) mass rfl flags port, by simp [RawUnit.fields, reefer]⟩
  | some t =>
    simp only [within_iff] at height
    have : t ≠ 0 := by omega
    exact ⟨badField_none rfl length (.inr height) mass rfl flags port, by simp [RawUnit.fields, reefer, this]⟩

/-- Settles O22. -/
theorem recordsSurviveTheirEncoding : Obligations.RecordsSurviveTheirEncoding :=
  ⟨fun n _ h => ⟨readLaneProfile_enc n (LaneProfile.rangesOk_iff.mp h), laneChecks_enc n (LaneProfile.rangesOk_iff.mp h)⟩,
    fun n _ h => readZone_enc n h, fun n _ h => readClearances_enc n h, fun _ unannounced h => rawUnit_enc_fields unannounced h,
    fun _ h => ⟨decBooking_encBooking h, encBooking_length h⟩⟩

end Sys2Proof.Machine

/-! DEF_LANE, DEF_ZONE, DEF_RAMP, DEF_SECTION, DEF_SHIP (spec/01 R3 to R9). An event that begins and ends
with an unsealed profile reports no lane and raises no trigger, so it ends with its reply; what is left is
what each handler answers. -/

namespace Sys2Proof.Machine

/-! An event on an unsealed profile -/

/-- The changes of a PROFILE request: no lane is reported, the mode does not become RUN, the account stays, and
every zone that was defined before keeps its masses. -/
structure Redefines (s t : State) : Prop where
  unwatched : lanesWatched s t = false
  mode : t.mode ≠ .run
  account : t.account = s.account
  heff : t.heff = s.heff
  zones : ∀ p ∈ t.zones, zoneChanged s p = false

theorem State.finish_redefines {s t : State} (d : Redefines s t) (r : Option (Station × Frame))
    (head tail : List Notice) :
    t.finish s r head tail false = ((t.answer r).sendAll (head ++ tail)).releaseAll.commit := by
  have still : triggered s t false = false := by simp [triggered, d.unwatched, d.mode]
  have account : accountChanged s ((t.answer r).sendAll (head ++ tail)) = false := by
    have zones : t.zones.any (zoneChanged s) = false := by simpa using fun n z hz => d.zones (n, z) hz
    have heff : ((t.answer r).sendAll (head ++ tail)).heff = s.heff := by simpa [State.heff] using d.heff
    simp [accountChanged, d.account, zones, heff]
  rw [State.finish_without_pass t s r head tail false (Or.inl still)]
  simp [State.report, watchedReports, d.unwatched, State.reviseLanes, State.settleEvent, State.reviseAccount, account]

/-- A PROFILE request that redefines places its reply and its notices, and that is all. -/
theorem State.takeKind_redefines {s : State} {st : Station} {code : Nat} {p : List Byte} {f : Frame}
    (o : s.Offers st code p f) (handle : Station → List Byte → State → Taken) {x : State} {r : Reply}
    {head : List Notice} (h : handle st p (s.popMailbox st) = { state := x, reply := r, head := head })
    (d : Redefines (s.popMailbox st) x) :
    s.takeKind st code handle = .next (x.concludedWith st (replyFrame f r) head) := by
  rw [State.takeKind_offers o handle h, State.finish_redefines d]
  simp [State.concludedWith, State.answer]

theorem lanesWatched_of_unsealed {s t : State} (unsealed : s.isSealed = false) : lanesWatched s t = false := by
  simp [lanesWatched, unsealed]

theorem State.mode_of_control {s t : State} (control : t.control = s.control) : t.mode = s.mode := by
  simp [State.mode, control]

theorem State.unsealed_of_profile {s : State} (ok : s.modeOk = true) (profile : s.mode = .profile) : s.isSealed = false :=
  ((State.modeOk_iff s).mp ok).1.unsealed profile

theorem zoneChanged_of_mem {s : State} (tables : s.tablesOk = true) {p : Nat × Zone} (hp : p ∈ s.zones) :
    zoneChanged s p = false := by
  simp [zoneChanged, Table.get_of_mem (State.zones_rising tables) hp]

/-- What redefines an unsealed profile and leaves the control block. -/
theorem Redefines.of_control {s t : State} (ok : s.modeOk = true) (profile : s.mode = .profile)
    (control : t.control = s.control) (account : t.account = s.account) (heff : t.heff = s.heff)
    (zones : ∀ p ∈ t.zones, zoneChanged s p = false) : Redefines s t :=
  ⟨lanesWatched_of_unsealed (State.unsealed_of_profile ok profile), by simp [State.mode_of_control control, profile],
    account, heff, zones⟩

/-- A redefinition that leaves the zones. -/
theorem Redefines.of_zones {s t : State} (tables : s.tablesOk = true) (ok : s.modeOk = true) (profile : s.mode = .profile)
    (control : t.control = s.control) (account : t.account = s.account) (heff : t.heff = s.heff)
    (zones : t.zones = s.zones) : Redefines s t :=
  .of_control ok profile control account heff fun _ hp => zoneChanged_of_mem tables (zones ▸ hp)

/-! The checks that open every DEF_ request -/

theorem defOpens_of_passing {s : State} (profile : s.mode = .profile) (k : Taken) :
    defOpens .loading s true true k = k := by
  simp [defOpens, profile]

theorem defOpens_of_misnumbered {s : State} (profile : s.mode = .profile) (formOk : Bool) (k : Taken) :
    defOpens .loading s formOk false k = refuseAt s 0 := by
  simp [defOpens, profile]

/-! The first rule that is broken -/

/-- The checks stand for the breaches in their order; a later one may rely on the earlier rules being kept. -/
def Stand : List (Nat × Bool) → List (Nat × Prop) → Prop
  | [], [] => True
  | c :: cs, b :: bs => c.1 = b.1 ∧ (c.2 = false ↔ b.2) ∧ (¬ b.2 → Stand cs bs)
  | _, _ => False

theorem Stand.cons {n : Nat} {c : Bool} {b : Prop} {cs : List (Nat × Bool)} {bs : List (Nat × Prop)}
    (here : c = false ↔ b) (rest : ¬ b → Stand cs bs) : Stand ((n, c) :: cs) ((n, b) :: bs) := ⟨rfl, here, rest⟩

theorem Stand.firstFailing {checks : List (Nat × Bool)} {broken : List (Nat × Prop)} {k : Nat} (same : Stand checks broken)
    (h : FirstBroken broken k) : firstFailing checks = some k := by
  induction checks generalizing broken with
  | nil =>
    cases broken with
    | nil => exact h.elim
    | cons _ _ => exact same.elim
  | cons c cs ih =>
    cases broken with
    | nil => exact h.elim
    | cons b bs =>
      obtain ⟨number, here, rest⟩ := same
      obtain ⟨hb, rfl⟩ | ⟨hb, later⟩ := h
      · simp [Machine.firstFailing, here.mpr hb, number]
      · have kept : c.2 = true := by simpa using mt here.mp hb
        simpa [Machine.firstFailing, kept] using ih (rest hb) later

theorem within_false_iff {lo hi v : Nat} : within lo hi v = false ↔ v < lo ∨ hi < v := by
  rw [← Bool.not_eq_true, within_iff]
  omega

/-! DEF_LANE (R4) -/

theorem directionOf_isSome_iff {v : Nat} : (directionOf v).isSome = false ↔ 1 < v := by
  unfold directionOf
  split_ifs <;> simp <;> omega

theorem flagOf_isSome_iff {v : Nat} : (flagOf v).isSome = false ↔ v ≠ 1 ∧ v ≠ 2 := by
  unfold flagOf
  split_ifs <;> simp <;> omega

theorem kindSetOf_isSome_iff {v : Nat} : (kindSetOf v).isSome = false ↔ v < 1 ∨ 15 < v := by
  unfold kindSetOf
  split_ifs <;> simp <;> omega

theorem relationOf_isSome_iff {v w : Nat} : (relationOf v w).isSome = false ↔
    ¬ (v = 1 ∧ w = 0 ∨ (v = 2 ∨ v = 3) ∧ 1 ≤ w ∧ w ≤ 6) := by
  have six : Config.sectionCount = 6 := rfl
  unfold relationOf
  split_ifs <;> simp <;> omega

theorem LaneProfile.fits_false_iff {l : LaneProfile} {v : Nat} (h : directionOf v = some l.direction) :
    l.fits = false ↔ v = 0 ∧ 2400 < l.closedEnd + l.length ∨ v = 1 ∧ l.closedEnd < l.length := by
  unfold directionOf at h
  unfold LaneProfile.fits
  split_ifs at h <;> obtain h := Option.some.inj h <;> rw [← h] <;> simp <;> omega

theorem within_lane (n : Nat) : within 1 Config.laneCount n = laneNumberOk n := by
  rw [Bool.eq_iff_iff, within_iff, laneNumberOk_iff]
  rfl

theorem encLaneRecord_length (n : Nat) (l : LaneProfile) : (u8 n ++ encLaneProfile l).length = 19 := by
  cases e : l.relation <;> simp [encLaneProfile, encRelation, e]

theorem laneChecks_stand (p : List Byte) : Stand (laneChecks p) (laneBreaches p) := by
  refine .cons within_false_iff fun _ => .cons within_false_iff fun _ => .cons within_false_iff fun _ =>
    .cons (within_false_iff.trans (by simp [readLaneProfile])) fun _ => .cons directionOf_isSome_iff fun direction =>
    .cons ?arm fun _ => .cons within_false_iff fun _ => .cons within_false_iff fun _ =>
    .cons (within_false_iff.trans (by simp [readLaneProfile])) fun _ => .cons flagOf_isSome_iff fun _ =>
    .cons kindSetOf_isSome_iff fun _ => .cons relationOf_isSome_iff fun _ => .cons ?fits fun _ => trivial
  case arm =>
    rw [← Bool.not_eq_true]
    simp only [Bool.and_eq_true, decide_eq_true_eq, not_and_or, Int.not_le]
    rfl
  case fits =>
    refine LaneProfile.fits_false_iff ?_
    have known : (directionOf (natOf (field p 7 1))).isSome = true := by
      rw [← Bool.not_eq_false, directionOf_isSome_iff]
      exact direction
    obtain ⟨d, hd⟩ := Option.isSome_iff_exists.mp known
    simp [readLaneProfile, hd]

section
variable {s : State} {n : Nat}

theorem handleDefLane_of_stored (profile : s.mode = .profile) (number : laneNumberOk n = true) {l : LaneProfile}
    (ranges : l.rangesOk = true) (fits : l.fits = true) :
    handleDefLane .loading (u8 n ++ encLaneProfile l) s =
      acknowledge { s with lanes := s.lanes.set n (newLane l) } (u8 n ++ encLaneProfile l) := by
  have ranged := LaneProfile.rangesOk_iff.mp ranges
  have first := natOf_field_u8_front (laneNumberOk_small number) (encLaneProfile l)
  simp [-List.length_append, handleDefLane, first, within_lane, number, defOpens_of_passing profile, encLaneRecord_length,
    laneChecks_enc n ranged, readLaneProfile_enc n ranged, fits]

theorem handleDefLane_of_failing (profile : s.mode = .profile) {p : List Byte} (length : p.length = 19)
    (number : laneNumberOk (natOf (field p 0 1)) = true) {k : Nat} (failing : firstFailing (laneChecks p) = some k) :
    handleDefLane .loading p s = refuseAt s k := by
  simp [handleDefLane, length, within_lane, number, defOpens_of_passing profile, failing]

theorem handleDefLane_of_number (profile : s.mode = .profile) (number : laneNumberOk n = true) :
    handleDefLane .loading (u8 n) s =
      removeRecordForm s (s.lanes.get n).isSome { s with lanes := s.lanes.erase n } := by
  simp [handleDefLane, natOf_field_u8 (laneNumberOk_small number), within_lane, number, defOpens_of_passing profile]

theorem handleDefLane_of_misnumbered (profile : s.mode = .profile) {p : List Byte}
    (number : laneNumberOk (natOf (field p 0 1)) = false) : handleDefLane .loading p s = refuseAt s 0 := by
  simp only [handleDefLane, within_lane, number, defOpens_of_misnumbered profile]

end

/-- Settles O23: the breaches of R4 stand for the handler's checks in their order, and storing a lane is a
redefinition. -/
theorem definedLanesAreStored : Obligations.DefinedLanesAreStored := by
  refine ⟨fun s n l f o tables ok profile number ranges => ⟨fun fits => ?stored, fun fits => ?beyond⟩,
    fun s f p k o tables profile length number broken => ?broken⟩
  case stored =>
    exact State.takeKind_redefines o _ (handleDefLane_of_stored (s := s.popMailbox .loading) profile number ranges fits)
      (.of_zones (s := s.popMailbox .loading) tables ok profile rfl rfl rfl rfl)
  case beyond =>
    have ranged := LaneProfile.rangesOk_iff.mp ranges
    refine .of_handle rfl o tables
      (handleDefLane_of_failing (s := s.popMailbox .loading) profile (encLaneRecord_length n l) ?_ ?_)
    · rwa [natOf_field_u8_front (laneNumberOk_small number)]
    · rw [laneChecks_enc n ranged, fits]; rfl
  case broken =>
    exact .of_handle rfl o tables (handleDefLane_of_failing (s := s.popMailbox .loading) profile length number
      ((laneChecks_stand p).firstFailing broken))

end Sys2Proof.Machine

/-! The other DEF_ requests and the removal forms (spec/01 R3, R6 to R9). -/

namespace Sys2Proof.Machine

theorem within_ramp (n : Nat) : within 1 Config.rampCount n = rampNumberOk n := rfl

theorem within_section (n : Nat) : within 1 Config.sectionCount n = sectionNumberOk n := by
  rw [Bool.eq_iff_iff, within_iff]
  simp [sectionNumberOk, Config.sectionCount]

theorem within_zone {n : Nat} (low : 1 ≤ n) (high : n ≤ 16) : within 1 Config.zoneCount n = true :=
  (within_iff _ _ _).mpr ⟨low, high⟩

theorem zoneChecks_inRange {z : Zone} (h : z.inRange = true) : firstFailing (zoneChecks z) = none := by
  simp only [Zone.inRange, Bool.and_eq_true, decide_eq_true_eq] at h
  obtain ⟨⟨⟨⟨⟨⟨deck, aft⟩, fore⟩, cap⟩, order⟩, -⟩, -⟩ := h
  simp [firstFailing, zoneChecks, deck, aft, fore, cap, order]

theorem clearanceChecks_inRange {c : Clearances} (h : c.inRange = true) : firstFailing (clearanceChecks c) = none := by
  simp only [Clearances.inRange, Bool.and_eq_true] at h
  obtain ⟨⟨⟨⟨⟨⟨⟨⟨⟨aboveRaised, aboveMid⟩, aboveLowered⟩, beneathRaised⟩, beneathMid⟩, beneathLowered⟩, h1⟩, h2⟩, h3⟩, h4⟩ := h
  simp only [firstFailing, clearanceChecks, aboveRaised, aboveMid, aboveLowered, beneathRaised, beneathMid,
    beneathLowered, h1, h2, h3, h4]
  rfl

section
variable {s : State} {n k : Nat} {p : List Byte} (profile : s.mode = .profile)
include profile

/-! DEF_ZONE (R6) -/

theorem handleDefZone_of_stored (low : 1 ≤ n) (high : n ≤ 16) {z : Zone} (range : z.inRange = true) :
    handleDefZone .loading (u8 n ++ encZone z) s =
      acknowledge { s with zones := s.zones.set n z } (u8 n ++ encZone z) := by
  have length : (u8 n ++ encZone z).length = 8 := rfl
  simp [-List.length_append, handleDefZone, natOf_field_u8_front (show n < 256 by omega), within_zone low high,
    defOpens_of_passing profile, length, readZone_enc n range, zoneChecks_inRange range]

theorem handleDefZone_of_failing (length : p.length = 8) (low : 1 ≤ natOf (field p 0 1))
    (high : natOf (field p 0 1) ≤ 16) (failing : firstFailing (zoneChecks (readZone p)) = some k) :
    handleDefZone .loading p s = refuseAt s k := by
  simp [handleDefZone, length, within_zone low high, defOpens_of_passing profile, failing]

theorem handleDefZone_of_number (low : 1 ≤ n) (high : n ≤ 16) :
    handleDefZone .loading (u8 n) s =
      removeRecordForm s (s.zones.get n).isSome { s with zones := s.zones.erase n } := by
  simp [handleDefZone, natOf_field_u8 (show n < 256 by omega), within_zone low high, defOpens_of_passing profile]

theorem handleDefZone_of_misnumbered (number : natOf (field p 0 1) = 0 ∨ 16 < natOf (field p 0 1)) :
    handleDefZone .loading p s = refuseAt s 0 := by
  have out : within 1 Config.zoneCount (natOf (field p 0 1)) = false := within_false_iff.mpr (by
    have : Config.zoneCount = 16 := rfl
    omega)
  simp only [handleDefZone, out, defOpens_of_misnumbered profile]

/-! DEF_RAMP (R7) -/

theorem handleDefRamp_of_number (number : rampNumberOk n = true) :
    handleDefRamp .loading (u8 n) s =
      removeRecordForm s (s.ramps.get n).isSome { s with ramps := s.ramps.erase n } := by
  simp [handleDefRamp, natOf_field_u8 (rampNumberOk_small number), within_ramp, number, defOpens_of_passing profile]

theorem handleDefRamp_of_misnumbered (number : rampNumberOk (natOf (field p 0 1)) = false) :
    handleDefRamp .loading p s = refuseAt s 0 := by
  simp only [handleDefRamp, within_ramp, number, defOpens_of_misnumbered profile]

/-! DEF_SECTION (R8) -/

theorem handleDefSection_of_stored (number : sectionNumberOk n = true) {c : Clearances} (range : c.inRange = true) :
    handleDefSection .loading (u8 n ++ encClearances c) s =
      acknowledge { s with sections := s.sections.set n (newSection c) } (u8 n ++ encClearances c) := by
  have length : (u8 n ++ encClearances c).length = 13 := rfl
  simp [-List.length_append, handleDefSection, natOf_field_u8_front (sectionNumberOk_small number), within_section,
    number, defOpens_of_passing profile, length, readClearances_enc n range, clearanceChecks_inRange range]

theorem handleDefSection_of_failing (length : p.length = 13) (number : sectionNumberOk (natOf (field p 0 1)) = true)
    (failing : firstFailing (clearanceChecks (readClearances p)) = some k) :
    handleDefSection .loading p s = refuseAt s k := by
  simp [handleDefSection, length, within_section, number, defOpens_of_passing profile, failing]

theorem handleDefSection_of_number (number : sectionNumberOk n = true) :
    handleDefSection .loading (u8 n) s =
      removeRecordForm s (s.sections.get n).isSome { s with sections := s.sections.erase n } := by
  simp [handleDefSection, natOf_field_u8 (sectionNumberOk_small number), within_section, number,
    defOpens_of_passing profile]

theorem handleDefSection_of_misnumbered (number : sectionNumberOk (natOf (field p 0 1)) = false) :
    handleDefSection .loading p s = refuseAt s 0 := by
  simp only [handleDefSection, within_section, number, defOpens_of_misnumbered profile]

/-! DEF_SHIP (R9) -/

theorem handleDefShip_of_stored {gap seg : Nat} (gapRange : gap ≤ 10) (segRange : seg ≤ 300) :
    handleDefShip .loading (u8 gap ++ u16 seg) s =
      acknowledge { s with gap := gap, segregation := seg } (u8 gap ++ u16 seg) := by
  have second : natOf (field (u8 gap ++ u16 seg) 1 2) = seg := by
    rw [show field (u8 gap ++ u16 seg) 1 2 = u16 seg from rfl, natOf_u16 (by omega)]
  have length : (u8 gap ++ u16 seg).length = 3 := rfl
  have ranges : firstFailing [(1, within 0 10 gap), (2, within 0 300 seg)] = none := by
    simp [firstFailing, within, gapRange, segRange]
  simp [-List.length_append, handleDefShip, natOf_field_u8_front (show gap < 256 by omega), second, ranges, length,
    defOpens_of_passing profile]

theorem handleDefShip_of_failing (length : p.length = 3)
    (failing : firstFailing [(1, within 0 10 (natOf (field p 0 1))), (2, within 0 300 (natOf (field p 1 2)))] = some k) :
    handleDefShip .loading p s = refuseAt s k := by
  simp [handleDefShip, length, defOpens_of_passing profile, failing]

theorem handleDefShip_of_empty :
    handleDefShip .loading [] s = acknowledge { s with gap := 3, segregation := 60 } [] := by
  simp [handleDefShip, defOpens_of_passing profile, Config.defaultGap, Config.defaultSegregation]

end

/-! The rules of the tables in their order -/

theorem decide_false_iff_lt {a b : Nat} : decide (a ≤ b) = false ↔ b < a := by simp

theorem zoneChecks_stand (p : List Byte) : Stand (zoneChecks (readZone p)) (zoneBreaches p) :=
  .cons within_false_iff fun _ => .cons (within_false_iff.trans (by simp [readZone])) fun _ =>
    .cons within_false_iff fun _ => .cons within_false_iff fun _ => .cons (decide_eq_false_iff_not.trans Nat.not_lt) fun _ => trivial

theorem clearanceChecks_stand (p : List Byte) : Stand (clearanceChecks (readClearances p)) (sectionBreaches p) :=
  .cons within_false_iff fun _ => .cons within_false_iff fun _ => .cons within_false_iff fun _ =>
    .cons within_false_iff fun _ => .cons within_false_iff fun _ => .cons within_false_iff fun _ =>
    .cons decide_false_iff_lt fun _ => .cons decide_false_iff_lt fun _ => .cons decide_false_iff_lt fun _ =>
    .cons decide_false_iff_lt fun _ => trivial

theorem shipChecks_stand (p : List Byte) :
    Stand [(1, within 0 10 (natOf (field p 0 1))), (2, within 0 300 (natOf (field p 1 2)))] (shipBreaches p) :=
  .cons (within_false_iff.trans (by simp)) fun _ => .cons (within_false_iff.trans (by simp)) fun _ => trivial

/-! The reach list (R7) -/

/-- The first element that is no lane number or stands in the list already is found at its position. -/
theorem badReach_of_first {earlier : List Nat} {e : Nat} (later : List Nat) (good : ∀ x ∈ earlier, laneNumberOk x = true)
    (once : earlier.Nodup) (seen : List Nat) (fresh : ∀ x ∈ earlier, x ∉ seen)
    (bad : laneNumberOk e = false ∨ e ∈ seen ∨ e ∈ earlier) (at_ : Nat) :
    badReach seen at_ (earlier ++ e :: later) = some (at_ + earlier.length) := by
  induction earlier generalizing seen at_ with
  | nil =>
    have : laneNumberOk e = false ∨ e ∈ seen := by simpa using bad
    rcases this with out | again <;> simp [badReach, within_lane, *]
  | cons x xs ih =>
    obtain ⟨new, once⟩ := List.nodup_cons.mp once
    have here : badReach seen at_ (x :: xs ++ e :: later) = badReach (x :: seen) (at_ + 1) (xs ++ e :: later) := by
      simp [badReach, within_lane, good x List.mem_cons_self, fresh x List.mem_cons_self]
    rw [here, ih (fun y hy => good y (.tail _ hy)) once (x :: seen) ?fresh ?bad, List.length_cons]
    · congr 1; omega
    case fresh =>
      rintro y hy again
      obtain rfl | old := List.mem_cons.mp again
      · exact new hy
      · exact fresh y (.tail _ hy) old
    case bad => simpa [or_comm, or_left_comm, or_assoc] using bad

theorem badReach_none {reach : List Nat} (good : ∀ x ∈ reach, laneNumberOk x = true) (once : reach.Nodup)
    (seen : List Nat) (fresh : ∀ x ∈ reach, x ∉ seen) (at_ : Nat) : badReach seen at_ reach = none := by
  induction reach generalizing seen at_ with
  | nil => rfl
  | cons x xs ih =>
    obtain ⟨new, once⟩ := List.nodup_cons.mp once
    have here : badReach seen at_ (x :: xs) = badReach (x :: seen) (at_ + 1) xs := by
      simp [badReach, within_lane, good x List.mem_cons_self, fresh x List.mem_cons_self]
    refine here.trans (ih (fun y hy => good y (.tail _ hy)) once (x :: seen) ?_ _)
    rintro y hy again
    obtain rfl | old := List.mem_cons.mp again
    · exact new hy
    · exact fresh y (.tail _ hy) old

theorem readReach_enc (n : Nat) {reach : List Nat} (small : ∀ e ∈ reach, e < 256) :
    ((u8 n ++ encNums reach).drop 2).map (·.toNat) = reach := by
  have tail : (u8 n ++ encNums reach).drop 2 = reach.flatMap u8 := rfl
  rw [tail]
  induction reach with
  | nil => rfl
  | cons e rest ih =>
    have byte : (u8 e).map (·.toNat) = [e] := by simp [u8, Nat.mod_eq_of_lt (small e List.mem_cons_self)]
    rw [List.flatMap_cons, List.map_append, byte, ih (fun x hx => small x (.tail _ hx)) rfl]
    rfl

section
variable {s : State} {n : Nat} {reach : List Nat}

/-- A DEF_RAMP with its list comes to the checks of the list. -/
theorem handleDefRamp_of_list (profile : s.mode = .profile) (number : rampNumberOk n = true) (count : reach.length < 256)
    (small : ∀ e ∈ reach, e < 256) :
    handleDefRamp .loading (u8 n ++ encNums reach) s =
      if within 1 24 reach.length then
        (badReach [] 1 reach).elim
          (acknowledge { s with ramps := s.ramps.set n (newRamp reach) } (u8 n ++ encNums reach)) (fun at_ => refuseAt s 1 at_)
      else refuseAt s 1 0 := by
  have second : natOf (field (u8 n ++ encNums reach) 1 1) = reach.length := by
    rw [show field (u8 n ++ encNums reach) 1 1 = u8 reach.length from rfl, natOf_u8 count]
  have length : (u8 n ++ encNums reach).length = 2 + reach.length := by
    simp [encNums, encList, u8]
    omega
  unfold handleDefRamp
  dsimp only
  rw [natOf_field_u8_front (rampNumberOk_small number), readReach_enc n small, second, length, within_ramp, number]
  simp only [Nat.le_add_right, decide_true, Bool.and_true, Bool.or_true, defOpens_of_passing profile]
  rw [if_neg (by omega)]
  cases within 1 24 reach.length <;> cases badReach [] 1 reach <;> rfl

theorem handleDefRamp_of_stored (profile : s.mode = .profile) (number : rampNumberOk n = true) (ok : reachOk reach = true) :
    handleDefRamp .loading (u8 n ++ encNums reach) s =
      acknowledge { s with ramps := s.ramps.set n (newRamp reach) } (u8 n ++ encNums reach) := by
  simp only [reachOk, Bool.and_eq_true, List.all_eq_true, decide_eq_true_eq] at ok
  obtain ⟨⟨count, good⟩, once⟩ := ok
  have short := ((within_iff _ _ _).mp count).2
  rw [handleDefRamp_of_list profile number (by omega) fun e he => laneNumberOk_small (good e he), if_pos count,
    badReach_none good once [] (by simp)]
  rfl

end

/-! The zones of an unsealed profile -/

theorem State.settled_of_sound {s : State} (sound : s.sound = true) : s.tablesOk = true ∧ s.modeOk = true ∧ s.Planned := by
  have planned := ((State.sound_iff s).mp sound).1.planned
  simp only [State.sound, State.storesOk, Bool.and_eq_true] at sound
  obtain ⟨⟨⟨⟨⟨⟨⟨⟨⟨⟨⟨tables, -⟩, -⟩, -⟩, -⟩, -⟩, ok⟩, -⟩, -⟩, -⟩, -⟩, -⟩ := sound
  exact ⟨tables, ok, planned⟩

theorem State.Planned.free_zones {s : State} (planned : s.Planned) (ok : s.modeOk = true) (profile : s.mode = .profile) :
    ∀ z ∈ s.zones, z.2.confirmed = 0 ∧ z.2.pendingLoad = 0 := by
  have moded := ((State.modeOk_iff s).mp ok).1
  have movements : s.movements = [] := (moded.run.resolve_left (by simp [State.work_of_profile profile])).1
  exact (planned.vacant (planned.bare (moded.unsealed profile)) movements).zones

/-- In an unsealed sound state every zone stands without mass, so defining one changes no zone mass. -/
theorem Redefines.of_zone {s : State} (tables : s.tablesOk = true) (ok : s.modeOk = true) (planned : s.Planned)
    (profile : s.mode = .profile) (n : Nat) {z : Zone} (confirmed : z.confirmed = 0) (pending : z.pendingLoad = 0) :
    Redefines s { s with zones := s.zones.set n z } := by
  refine .of_control ok profile rfl rfl rfl fun p hp => ?_
  obtain old | rfl := Table.mem_set hp
  · exact zoneChanged_of_mem tables old
  · cases held : s.zones.get n with
    | none => simp [zoneChanged, held]
    | some z0 =>
      obtain ⟨c0, p0⟩ := planned.free_zones ok profile (n, z0) (Table.mem_of_get held)
      simp_all [zoneChanged]

/-- Dropping a zone changes none of those that stay. -/
theorem Redefines.without_zone {s : State} (tables : s.tablesOk = true) (ok : s.modeOk = true)
    (profile : s.mode = .profile) (n : Nat) : Redefines s { s with zones := s.zones.erase n } :=
  .of_control ok profile rfl rfl rfl fun _ hp => zoneChanged_of_mem tables (Table.mem_of_mem_erase hp)

/-! What the commands do -/

theorem handleDefRamp_of_count (s : State) {p : List Byte} {reach : List Nat} (profile : s.mode = .profile)
    (carries : p = u8 (natOf (field p 0 1)) ++ encNums reach) (number : rampNumberOk (natOf (field p 0 1)) = true)
    (count : reach.length < 256) (small : ∀ e ∈ reach, e < 256) (out : reach = [] ∨ 24 < reach.length) :
    handleDefRamp .loading p s = refuseAt s 1 0 := by
  have bad : within 1 24 reach.length = false := within_false_iff.mpr (by
    rcases out with rfl | long
    · exact .inl (by decide)
    · exact .inr long)
  rw [carries, handleDefRamp_of_list profile number count small, bad]
  rfl

theorem handleDefRamp_of_element (s : State) {p : List Byte} {earlier later : List Nat} {e : Nat}
    (profile : s.mode = .profile) (carries : p = u8 (natOf (field p 0 1)) ++ encNums (earlier ++ e :: later))
    (number : rampNumberOk (natOf (field p 0 1)) = true) (small : ∀ x ∈ earlier ++ e :: later, x < 256)
    (short : (earlier ++ e :: later).length ≤ 24) (good : ∀ x ∈ earlier, laneNumberOk x = true) (once : earlier.Nodup)
    (bad : laneNumberOk e = false ∨ e ∈ earlier) : handleDefRamp .loading p s = refuseAt s 1 (earlier.length + 1) := by
  have count : within 1 24 (earlier ++ e :: later).length = true :=
    (within_iff _ _ _).mpr ⟨by simp; omega, short⟩
  rw [carries, handleDefRamp_of_list profile number (by omega) small, if_pos count,
    badReach_of_first later good once [] (by simp) (by simpa using bad), Nat.add_comm]
  rfl

/-- Settles O24: the breaches of R6 to R9 stand for the handlers' checks in their order, the first bad element of
a reach list is found at its position, and storing a record is a redefinition. -/
theorem definitionsAreStored : Obligations.DefinitionsAreStored := by
  refine ⟨fun s n z f o sound profile low high range => ?zone, fun s n reach f o tables ok profile number reachable => ?ramp,
    fun s n c f o tables ok profile number range => ?sect, fun s gap seg f o tables ok profile gapRange segRange => ?ship,
    fun s f p tables profile => ⟨fun k o length low high broken => ?noZone, fun reach o carries number count small =>
      ⟨fun out => ?noReach, fun earlier e later short split good once bad => ?badReach⟩,
      fun k o length number broken => ?noSection, fun k o length broken => ?noShip⟩⟩
  case zone =>
    obtain ⟨tables, ok, planned⟩ := State.settled_of_sound sound
    simp only [Zone.inRange, Bool.and_eq_true, decide_eq_true_eq] at range
    exact State.takeKind_redefines o _ (handleDefZone_of_stored (s := s.popMailbox .loading) profile low high
      (by simpa only [Zone.inRange, Bool.and_eq_true, decide_eq_true_eq] using range))
      (.of_zone (s := s.popMailbox .loading) tables ok
        ⟨planned.booked, planned.waits, { planned.berthed with }, { planned.ledger with }⟩ profile n range.1.2 range.2)
  case ramp =>
    exact State.takeKind_redefines o _ (handleDefRamp_of_stored (s := s.popMailbox .loading) profile number reachable)
      (.of_zones (s := s.popMailbox .loading) tables ok profile rfl rfl rfl rfl)
  case sect =>
    exact State.takeKind_redefines o _ (handleDefSection_of_stored (s := s.popMailbox .loading) profile number range)
      (.of_zones (s := s.popMailbox .loading) tables ok profile rfl rfl rfl rfl)
  case ship =>
    exact State.takeKind_redefines o _ (handleDefShip_of_stored (s := s.popMailbox .loading) profile gapRange segRange)
      (.of_zones (s := s.popMailbox .loading) tables ok profile rfl rfl rfl rfl)
  case noZone =>
    exact .of_handle rfl o tables (handleDefZone_of_failing (s := s.popMailbox .loading) profile length low high
      ((zoneChecks_stand p).firstFailing broken))
  case noReach =>
    exact .of_handle rfl o tables (handleDefRamp_of_count (s.popMailbox .loading) profile carries number count small out)
  case badReach =>
    subst split
    exact .of_handle rfl o tables
      (handleDefRamp_of_element (s.popMailbox .loading) profile carries number small short good once bad)
  case noSection =>
    exact .of_handle rfl o tables (handleDefSection_of_failing (s := s.popMailbox .loading) profile length number
      ((clearanceChecks_stand p).firstFailing broken))
  case noShip =>
    exact .of_handle rfl o tables (handleDefShip_of_failing (s := s.popMailbox .loading) profile length
      ((shipChecks_stand p).firstFailing broken))

/-- The removal form of a DEF_ request drops the record, or is refused UNKNOWN. -/
theorem exec_removeRecordForm {c : Instr} {s : State} {code : Nat} {p : List Byte} {f : Frame} {defined : Bool}
    {removed : State} {handle : Station → List Byte → State → Taken} (hc : exec c s = s.takeKind .loading code handle)
    (o : s.Offers .loading code p f) (tables : s.tablesOk = true)
    (h : handle .loading p (s.popMailbox .loading) = removeRecordForm (s.popMailbox .loading) defined removed)
    (d : Redefines (s.popMailbox .loading) removed) :
    if defined then exec c s = .next (removed.concluded .loading (replyFrame f (.ack [])))
    else OnlyAnswers c s .loading f (.refuse .unknown []) := by
  cases defined with
  | true => exact hc.trans (State.takeKind_redefines o _ h d)
  | false => exact .of_handle hc o tables h

/-- Settles O25: each removal form drops its record or is refused, and a record number out of range ends in the
opening checks. -/
theorem definitionsAreRemoved : Obligations.DefinitionsAreRemoved := by
  intro s n f tables ok profile small
  have redefines {t : State} (control : t.control = s.control) (account : t.account = s.account) (heff : t.heff = s.heff)
      (zones : t.zones = s.zones) : Redefines (s.popMailbox .loading) t :=
    .of_zones (s := s.popMailbox .loading) tables ok profile control account heff zones
  refine ⟨fun o number => ?lane, fun o low high => ?zone, fun o number => ?ramp, fun o number => ?sect, fun o => ?ship,
    fun p first => ⟨fun o _ out => ?noLane, fun o _ out => ?noZone, fun o _ out => ?noRamp, fun o _ out => ?noSection⟩⟩
  case lane =>
    exact exec_removeRecordForm rfl o tables (handleDefLane_of_number (s := s.popMailbox .loading) profile number)
      (redefines rfl rfl rfl rfl)
  case zone =>
    exact exec_removeRecordForm rfl o tables (handleDefZone_of_number (s := s.popMailbox .loading) profile low high)
      (.without_zone (s := s.popMailbox .loading) tables ok profile n)
  case ramp =>
    exact exec_removeRecordForm rfl o tables (handleDefRamp_of_number (s := s.popMailbox .loading) profile number)
      (redefines rfl rfl rfl rfl)
  case sect =>
    exact exec_removeRecordForm rfl o tables (handleDefSection_of_number (s := s.popMailbox .loading) profile number)
      (redefines rfl rfl rfl rfl)
  case ship =>
    exact State.takeKind_redefines o _ (handleDefShip_of_empty (s := s.popMailbox .loading) profile)
      (redefines rfl rfl rfl rfl)
  case noLane =>
    exact .of_handle rfl o tables (handleDefLane_of_misnumbered (s := s.popMailbox .loading) profile (first ▸ out))
  case noZone =>
    exact .of_handle rfl o tables (handleDefZone_of_misnumbered (s := s.popMailbox .loading) profile (first ▸ out))
  case noRamp =>
    exact .of_handle rfl o tables (handleDefRamp_of_misnumbered (s := s.popMailbox .loading) profile (first ▸ out))
  case noSection =>
    exact .of_handle rfl o tables (handleDefSection_of_misnumbered (s := s.popMailbox .loading) profile (first ▸ out))

end Sys2Proof.Machine

/-! SEAL and CLEAR_PLAN (spec/01 R10 to R17). Each item of Table 1-7 is the first hit of a search through a list
that stands in ascending order. -/

namespace Sys2Proof.Machine

/-! Searching an ascending list -/

section
variable {α β : Type} {R : α → α → Prop} {l : List α}

/-- What comes ahead of every other hit is what the search finds. -/
theorem find?_of_first {p : α → Bool} (ordered : l.Pairwise R) {a : α} (mem : a ∈ l) (hit : p a = true)
    (first : ∀ b ∈ l, p b = true → ¬ R b a) : l.find? p = some a := by
  obtain ⟨before, after, rfl⟩ := List.append_of_mem mem
  refine List.find?_eq_some_iff_append.mpr ⟨hit, before, after, rfl, fun b hb => ?_⟩
  have ahead : R b a := (List.pairwise_append.mp ordered).2.2 b hb a List.mem_cons_self
  simpa using fun hit => first b (List.mem_append_left _ hb) hit ahead

theorem findSome?_of_first {f : α → Option β} (ordered : l.Pairwise R) {a : α} (mem : a ∈ l) {b : β} (hit : f a = some b)
    (first : ∀ c ∈ l, f c ≠ none → ¬ R c a) : l.findSome? f = some b := by
  obtain ⟨before, after, rfl⟩ := List.append_of_mem mem
  refine List.findSome?_eq_some_iff.mpr ⟨before, a, after, rfl, hit, fun c hc => ?_⟩
  have ahead : R c a := (List.pairwise_append.mp ordered).2.2 c hc a List.mem_cons_self
  by_contra hit
  exact first c (List.mem_append_left _ hc) hit ahead

end

section
variable {α : Type}

theorem Table.pairwise_of_wf {t : Table α} {last : Nat} (h : t.wf last = true) : t.Pairwise fun p q => p.1 < q.1 := by
  rw [Table.wf_iff_pairwise] at h
  exact List.pairwise_map.mp (List.pairwise_cons.mp h.1).2

/-- A pair by its lower, then by its higher number. -/
def Ahead (p q : (Nat × α) × (Nat × α)) : Prop := p.1.1 < q.1.1 ∨ p.1.1 = q.1.1 ∧ p.2.1 < q.2.1

theorem mem_pairsOf {t : Table α} (h : t.Pairwise fun p q => p.1 < q.1) {p : (Nat × α) × (Nat × α)} :
    p ∈ pairsOf t ↔ p.1 ∈ t ∧ p.2 ∈ t ∧ p.1.1 < p.2.1 := by
  induction t with
  | nil => simp [pairsOf]
  | cons a rest ih =>
    obtain ⟨above, rising⟩ := List.pairwise_cons.mp h
    obtain ⟨x, y⟩ := p
    simp only [pairsOf, List.mem_append, List.mem_map, Prod.mk.injEq, ih rising, List.mem_cons]
    constructor
    · rintro (⟨b, hb, rfl, rfl⟩ | ⟨hx, hy, lt⟩)
      · exact ⟨.inl rfl, .inr hb, above b hb⟩
      · exact ⟨.inr hx, .inr hy, lt⟩
    · rintro ⟨rfl | hx, rfl | hy, lt⟩
      · exact absurd lt (Nat.lt_irrefl _)
      · exact .inl ⟨y, hy, rfl, rfl⟩
      · exact absurd (above x hx) (Nat.lt_asymm lt)
      · exact .inr ⟨hx, hy, lt⟩

theorem pairsOf_ordered {t : Table α} (h : t.Pairwise fun p q => p.1 < q.1) : (pairsOf t).Pairwise Ahead := by
  induction t with
  | nil => exact .nil
  | cons a rest ih =>
    obtain ⟨above, rising⟩ := List.pairwise_cons.mp h
    refine List.pairwise_append.mpr ⟨?_, ih rising, ?_⟩
    · exact List.pairwise_map.mpr (rising.imp fun lt => .inr ⟨rfl, lt⟩)
    · intro p hp q hq
      obtain ⟨b, -, rfl⟩ := List.mem_map.mp hp
      exact .inl (above q.1 ((mem_pairsOf rising).mp hq).1)

/-- The first pair of records with a property that goes both ways is what the search finds; without one it finds
none. -/
theorem find?_pairsOf {t : Table α} {last : Nat} (wf : t.wf last = true) {p : Nat × α → Nat × α → Bool} {r : Nat → Nat → Prop}
    (meaning : ∀ a b, r a b ↔ ∃ x y, t.get a = some x ∧ t.get b = some y ∧ p (a, x) (b, y) = true)
    (symmetric : ∀ a b, r a b → r b a) :
    ((∀ a b, a ≠ b → ¬ r a b) ↔ (pairsOf t).find? (fun q => p q.1 q.2) = none) ∧
    ∀ a b, a < b → r a b → (∀ c d, c < d → r c d → ¬ (c < a ∨ c = a ∧ d < b)) →
      ∃ x y, (pairsOf t).find? (fun q => p q.1 q.2) = some ((a, x), (b, y)) := by
  have ordered := Table.pairwise_of_wf wf
  have mem {n : Nat} {x : α} : (n, x) ∈ t ↔ t.get n = some x := Table.mem_iff_get wf _ _
  constructor
  · rw [List.find?_eq_none]
    constructor
    · rintro apart ⟨⟨a, x⟩, ⟨b, y⟩⟩ hq hit
      obtain ⟨ha, hb, lt⟩ := (mem_pairsOf ordered).mp hq
      exact apart a b (Nat.ne_of_lt lt) ((meaning a b).mpr ⟨x, y, mem.mp ha, mem.mp hb, hit⟩)
    · intro none_ a b ne hit
      have lower (a b : Nat) (lt : a < b) (hit : r a b) : False := by
        obtain ⟨x, y, ha, hb, hp⟩ := (meaning a b).mp hit
        exact none_ ((a, x), (b, y)) ((mem_pairsOf ordered).mpr ⟨mem.mpr ha, mem.mpr hb, lt⟩) hp
      rcases Nat.lt_or_gt_of_ne ne with lt | gt
      · exact lower a b lt hit
      · exact lower b a gt (symmetric a b hit)
  · intro a b lt hit first
    obtain ⟨x, y, ha, hb, hp⟩ := (meaning a b).mp hit
    refine ⟨x, y, find?_of_first (pairsOf_ordered ordered)
      ((mem_pairsOf ordered).mpr ⟨mem.mpr ha, mem.mpr hb, lt⟩) hp ?_⟩
    rintro ⟨⟨c, z⟩, ⟨d, w⟩⟩ hq hcd
    obtain ⟨hc, hd, lt⟩ := (mem_pairsOf ordered).mp hq
    exact first c d lt ((meaning c d).mpr ⟨z, w, mem.mp hc, mem.mp hd, hcd⟩)

/-- A search through a table finds what the lowest-numbered record gives. -/
theorem Table.findSome?_of_lowest {β : Type} {t : Table α} {last : Nat} (wf : t.wf last = true) {f : Nat × α → Option β}
    {n : Nat} {a : α} (held : t.get n = some a) {b : β} (hit : f (n, a) = some b)
    (lowest : ∀ m c, t.get m = some c → f (m, c) ≠ none → n ≤ m) : t.findSome? f = some b :=
  findSome?_of_first (Table.pairwise_of_wf wf) ((Table.mem_iff_get wf _ _).mpr held) hit
    fun c hc hitc => (lowest c.1 c.2 ((Table.mem_iff_get wf _ _).mp hc) hitc).not_gt

end

/-! Table 1-7 -/

def State.Overlapping (s : State) (a b : Nat) : Prop :=
  ∃ la lb, s.lanes.get a = some la ∧ s.lanes.get b = some lb ∧ la.profile.deck = lb.profile.deck ∧
    la.profile.row = lb.profile.row ∧
    max la.profile.extent.lo lb.profile.extent.lo < min la.profile.extent.hi lb.profile.extent.hi

def State.Meeting (s : State) (a b : Nat) : Prop :=
  ∃ za zb, s.zones.get a = some za ∧ s.zones.get b = some zb ∧ za.deck = zb.deck ∧
    max za.aft zb.aft < min za.fore zb.fore

def State.Astray (s : State) (r at_ n : Nat) : Prop :=
  ∃ row, s.ramps.get r = some row ∧ 1 ≤ at_ ∧ row.reach[at_ - 1]? = some n ∧ s.lanes.get n = none

def State.Unfounded (s : State) (n k : Nat) : Prop :=
  ∃ l, s.lanes.get n = some l ∧ l.profile.relation.section? = some k ∧ s.sections.get k = none

def State.Unplaced (s : State) (n : Nat) : Prop :=
  (∃ c, s.sections.get n = some c) ∧ inputCount (s.sectionInputs n) ≠ 1

section
variable {s : State}

theorem State.Overlapping.symm {a b : Nat} (h : s.Overlapping a b) : s.Overlapping b a := by
  obtain ⟨la, lb, ha, hb, deck, row, meet⟩ := h
  exact ⟨lb, la, hb, ha, deck.symm, row.symm, by rwa [max_comm, min_comm]⟩

theorem State.Meeting.symm {a b : Nat} (h : s.Meeting a b) : s.Meeting b a := by
  obtain ⟨za, zb, ha, hb, deck, meet⟩ := h
  exact ⟨zb, za, hb, ha, deck.symm, by rwa [max_comm, min_comm]⟩

theorem State.overlapping_iff (a b : Nat) : s.Overlapping a b ↔
    ∃ x y, s.lanes.get a = some x ∧ s.lanes.get b = some y ∧ laneOverlap (a, x) (b, y) = true := by
  simp [State.Overlapping, laneOverlap, Span.overlaps, and_assoc]

theorem State.meeting_iff (a b : Nat) : s.Meeting a b ↔
    ∃ x y, s.zones.get a = some x ∧ s.zones.get b = some y ∧ zoneOverlap (a, x) (b, y) = true := by
  have cast (p q : Zone) : max p.aft q.aft < min p.fore q.fore ↔ max (p.aft : Int) q.aft < min (p.fore : Int) q.fore := by
    omega
  simp [State.Meeting, zoneOverlap, Span.overlaps, cast]

theorem zipIdx_ordered {α : Type} (l : List α) (k : Nat) : (l.zipIdx k).Pairwise fun a b => a.2 < b.2 := by
  induction l generalizing k with
  | nil => exact .nil
  | cons x rest ih =>
    refine List.pairwise_cons.mpr ⟨fun b hb => ?_, ih _⟩
    have := List.le_snd_of_mem_zipIdx hb
    omega

theorem State.astray_iff (r : Nat) (row : Ramp) (held : s.ramps.get r = some row) (at_ n : Nat) :
    s.Astray r at_ n ↔ (n, at_) ∈ row.reach.zipIdx 1 ∧ (s.lanes.get n).isNone = true := by
  rw [List.mk_mem_zipIdx_iff_le_and_getElem?_sub, Option.isNone_iff_eq_none]
  constructor
  · rintro ⟨row', held', low, at', none_⟩
    obtain rfl := Option.some.inj (held.symm.trans held')
    exact ⟨⟨low, at'⟩, none_⟩
  · rintro ⟨⟨low, at'⟩, none_⟩
    exact ⟨row, held, low, at', none_⟩

theorem reachUndefined_eq_none_iff {r : Nat} {row : Ramp} (held : s.ramps.get r = some row) :
    reachUndefined s (r, row) = none ↔ ∀ at_ n, ¬ s.Astray r at_ n := by
  simp only [reachUndefined, Option.map_eq_none_iff, List.find?_eq_none, Prod.forall,
    State.astray_iff r row held, not_and]
  exact forall_comm

theorem reachUndefined_of_first {r at_ n : Nat} {row : Ramp} (held : s.ramps.get r = some row) (astray : s.Astray r at_ n)
    (first : ∀ j m, s.Astray r j m → ¬ j < at_) : reachUndefined s (r, row) = some (u8 r ++ u8 at_ ++ u8 n) := by
  obtain ⟨mem, undefined⟩ := (State.astray_iff r row held at_ n).mp astray
  rw [reachUndefined, find?_of_first (zipIdx_ordered _ _) mem undefined fun b hb hit =>
    first b.2 b.1 ((State.astray_iff r row held b.2 b.1).mpr ⟨hb, hit⟩)]
  rfl

theorem sectionUndefined_ne_none_iff {n : Nat} {l : Lane} (held : s.lanes.get n = some l) :
    sectionUndefined s (n, l) ≠ none ↔ ∃ k, s.Unfounded n k := by
  unfold sectionUndefined State.Unfounded
  cases e : l.profile.relation.section? <;> simp [held, e]

theorem sectionUnplaced_ne_none_iff {n : Nat} {c : Sect} (held : s.sections.get n = some c) :
    sectionUnplaced s (n, c) ≠ none ↔ s.Unplaced n := by
  simp [sectionUnplaced, State.Unplaced, held]

/-! The stages of the search -/

section
variable (counted : s.lanes ≠ [] ∧ s.ramps ≠ [])
include counted

theorem sealFailure_of_lane_overlap {p : (Nat × Lane) × (Nat × Lane)}
    (h : (pairsOf s.lanes).find? (fun p => laneOverlap p.1 p.2) = some p) :
    sealFailure s = some (u8 3 ++ u8 p.1.1 ++ u8 p.2.1) := by
  simp [sealFailure, counted, h]

section
variable (lanes : (pairsOf s.lanes).find? (fun p => laneOverlap p.1 p.2) = none)
include lanes

theorem sealFailure_of_zone_overlap {p : (Nat × Zone) × (Nat × Zone)}
    (h : (pairsOf s.zones).find? (fun p => zoneOverlap p.1 p.2) = some p) :
    sealFailure s = some (u8 4 ++ u8 p.1.1 ++ u8 p.2.1) := by
  simp [sealFailure, counted, lanes, h]

section
variable (zones : (pairsOf s.zones).find? (fun p => zoneOverlap p.1 p.2) = none)
include zones

theorem sealFailure_of_reach {d : List Byte} (h : s.ramps.findSome? (reachUndefined s) = some d) :
    sealFailure s = some (u8 5 ++ d) := by
  simp [sealFailure, counted, lanes, zones, h]

theorem sealFailure_of_relation {d : List Byte} (reach : s.ramps.findSome? (reachUndefined s) = none)
    (h : s.lanes.findSome? (sectionUndefined s) = some d) : sealFailure s = some (u8 6 ++ d) := by
  simp [sealFailure, counted, lanes, zones, reach, h]

theorem sealFailure_of_position {d : List Byte} (reach : s.ramps.findSome? (reachUndefined s) = none)
    (relations : s.lanes.findSome? (sectionUndefined s) = none)
    (h : s.sections.findSome? (sectionUnplaced s) = some d) : sealFailure s = some (u8 7 ++ d) := by
  simp [sealFailure, counted, lanes, zones, reach, relations, h]

end
end
end

theorem sealFailure_eq_none_iff : sealFailure s = none ↔ (s.lanes ≠ [] ∧ s.ramps ≠ []) ∧
    (pairsOf s.lanes).find? (fun p => laneOverlap p.1 p.2) = none ∧
    (pairsOf s.zones).find? (fun p => zoneOverlap p.1 p.2) = none ∧
    s.ramps.findSome? (reachUndefined s) = none ∧ s.lanes.findSome? (sectionUndefined s) = none ∧
    s.sections.findSome? (sectionUnplaced s) = none := by
  by_cases counted : s.lanes ≠ [] ∧ s.ramps ≠ []
  · rw [and_iff_right counted]
    cases lanes : (pairsOf s.lanes).find? fun p => laneOverlap p.1 p.2 with
    | some p => simp [sealFailure_of_lane_overlap counted lanes]
    | none =>
    cases zones : (pairsOf s.zones).find? fun p => zoneOverlap p.1 p.2 with
    | some p => simp [sealFailure_of_zone_overlap counted lanes zones]
    | none =>
    cases reach : s.ramps.findSome? (reachUndefined s) with
    | some d => simp [sealFailure_of_reach counted lanes zones reach]
    | none =>
    cases relations : s.lanes.findSome? (sectionUndefined s) with
    | some d => simp [sealFailure_of_relation counted lanes zones reach relations]
    | none =>
    cases placed : s.sections.findSome? (sectionUnplaced s) with
    | some d => simp [sealFailure_of_position counted lanes zones reach relations placed]
    | none => simp [sealFailure, counted, lanes, zones, reach, relations, placed]
  · refine iff_of_false (fun none_ => ?_) fun h => counted h.1
    rcases not_and_or.mp counted with empty | empty
    · simp [sealFailure, not_not.mp empty] at none_
    · unfold sealFailure at none_
      simp only [not_not.mp empty, List.isEmpty_nil, if_true] at none_
      split at none_ <;> cases none_

/-! The items, each by what it says of the profile -/

section
variable (tables : s.tablesOk = true)
include tables

theorem State.wf_of_tablesOk : s.lanes.wf Config.laneCount = true ∧ s.zones.wf Config.zoneCount = true ∧
    s.ramps.wf Config.rampCount = true ∧ s.sections.wf Config.sectionCount = true := by
  simp only [State.tablesOk, Bool.and_eq_true] at tables
  obtain ⟨⟨⟨⟨lanes, zones⟩, ramps⟩, sections⟩, -⟩ := tables
  exact ⟨lanes, zones, ramps, sections⟩

theorem reach_found_iff : s.ramps.findSome? (reachUndefined s) = none ↔ ∀ r i n, ¬ s.Astray r i n := by
  have mem := Table.mem_iff_get (State.wf_of_tablesOk tables).2.2.1
  rw [List.findSome?_eq_none_iff]
  constructor
  · intro h r i n astray
    obtain ⟨row, held, rest⟩ := id astray
    exact (reachUndefined_eq_none_iff held).mp (h _ ((mem r row).mpr held)) i n astray
  · rintro h ⟨r, row⟩ hp
    exact (reachUndefined_eq_none_iff ((mem r row).mp hp)).mpr (h r)

theorem relations_found_iff : s.lanes.findSome? (sectionUndefined s) = none ↔ ∀ n k, ¬ s.Unfounded n k := by
  have mem := Table.mem_iff_get (State.wf_of_tablesOk tables).1
  rw [List.findSome?_eq_none_iff]
  constructor
  · intro h n k unfounded
    obtain ⟨l, held, rest⟩ := id unfounded
    exact (sectionUndefined_ne_none_iff held).mpr ⟨k, unfounded⟩ (h _ ((mem n l).mpr held))
  · rintro h ⟨n, l⟩ hp
    by_contra hit
    obtain ⟨k, unfounded⟩ := (sectionUndefined_ne_none_iff ((mem n l).mp hp)).mp hit
    exact h n k unfounded

theorem sections_placed_iff : s.sections.findSome? (sectionUnplaced s) = none ↔ ∀ n, ¬ s.Unplaced n := by
  have mem := Table.mem_iff_get (State.wf_of_tablesOk tables).2.2.2
  rw [List.findSome?_eq_none_iff]
  constructor
  · intro h n unplaced
    obtain ⟨⟨c, held⟩, rest⟩ := id unplaced
    exact (sectionUnplaced_ne_none_iff held).mpr unplaced (h _ ((mem n c).mpr held))
  · rintro h ⟨n, c⟩ hp
    by_contra hit
    exact h n ((sectionUnplaced_ne_none_iff ((mem n c).mp hp)).mp hit)

theorem reach_first {r i n : Nat} (astray : s.Astray r i n)
    (first : ∀ q j m, s.Astray q j m → ¬ (q < r ∨ q = r ∧ j < i)) :
    s.ramps.findSome? (reachUndefined s) = some (u8 r ++ u8 i ++ u8 n) := by
  obtain ⟨row, held, rest⟩ := id astray
  refine Table.findSome?_of_lowest (State.wf_of_tablesOk tables).2.2.1 held
    (reachUndefined_of_first held astray fun j m again lt => first r j m again (.inr ⟨rfl, lt⟩)) fun q other held hit => ?_
  rw [ne_eq, reachUndefined_eq_none_iff held] at hit
  push Not at hit
  obtain ⟨j, m, again⟩ := hit
  exact Nat.le_of_not_lt fun lt => first q j m again (.inl lt)

theorem relations_first {n k : Nat} (unfounded : s.Unfounded n k) (first : ∀ m j, s.Unfounded m j → n ≤ m) :
    s.lanes.findSome? (sectionUndefined s) = some (u8 n ++ u8 k) := by
  obtain ⟨l, held, names, undefined⟩ := unfounded
  refine Table.findSome?_of_lowest (State.wf_of_tablesOk tables).1 held (by simp [sectionUndefined, names, undefined])
    fun m other held hit => ?_
  obtain ⟨j, again⟩ := (sectionUndefined_ne_none_iff held).mp hit
  exact first m j again

theorem sections_first {n : Nat} (unplaced : s.Unplaced n) (first : ∀ m, s.Unplaced m → n ≤ m) :
    s.sections.findSome? (sectionUnplaced s) = some (u8 n ++ u8 (inputCount (s.sectionInputs n))) := by
  obtain ⟨⟨c, held⟩, count⟩ := unplaced
  exact Table.findSome?_of_lowest (State.wf_of_tablesOk tables).2.2.2 held (by simp [sectionUnplaced, count])
    fun m other held hit => first m ((sectionUnplaced_ne_none_iff held).mp hit)

end

end

/-- Settles O26: each item of Table 1-7 stands for its search, and the stages follow in the table's order. -/
theorem sealPassesExactlyWhen : Obligations.SealPassesExactlyWhen := by
  intro s tables
  obtain ⟨lanesWf, zonesWf, -⟩ := State.wf_of_tablesOk tables
  obtain ⟨lanesApart, firstLanes⟩ := find?_pairsOf (t := s.lanes) (p := laneOverlap) (r := s.Overlapping) lanesWf
    State.overlapping_iff fun _ _ => .symm
  obtain ⟨zonesApart, firstZones⟩ := find?_pairsOf (t := s.zones) (p := zoneOverlap) (r := s.Meeting) zonesWf
    State.meeting_iff fun _ _ => .symm
  refine ⟨?_, fun empty => by simp [sealFailure, empty], fun lanes empty => by simp [sealFailure, lanes, empty],
    fun counted => ⟨fun a b lt hit first => ?_, fun apart => ⟨fun a b lt hit first => ?_, fun zones =>
      ⟨fun r i n astray first => ?_, fun reach => ⟨fun n k unfounded first => ?_, fun relations n unplaced first => ?_⟩⟩⟩⟩⟩
  · rw [sealFailure_eq_none_iff, ← lanesApart, ← zonesApart, reach_found_iff tables, relations_found_iff tables,
      sections_placed_iff tables]
    rfl
  · obtain ⟨x, y, found⟩ := firstLanes a b lt hit first
    exact sealFailure_of_lane_overlap counted found
  · obtain ⟨x, y, found⟩ := firstZones a b lt hit first
    exact sealFailure_of_zone_overlap counted (lanesApart.mp apart) found
  · exact sealFailure_of_reach counted (lanesApart.mp apart) (zonesApart.mp zones) (reach_first tables astray first)
  · exact sealFailure_of_relation counted (lanesApart.mp apart) (zonesApart.mp zones) ((reach_found_iff tables).mpr reach)
      (relations_first tables unfounded first)
  · exact sealFailure_of_position counted (lanesApart.mp apart) (zonesApart.mp zones) ((reach_found_iff tables).mpr reach)
      ((relations_found_iff tables).mpr relations) (sections_first tables unplaced first)

end Sys2Proof.Machine

/-! What SEAL starts and what CLEAR_PLAN erases (spec/01 R14, R16, R17). -/

namespace Sys2Proof.Machine

/-! SEAL (R14) -/

section
variable {s : State}

theorem handleSeal_of_failure (profile : s.mode = .profile) {d : List Byte} (failure : sealFailure s = some d) :
    handleSeal .loading [] s = refuse s .profileInvalid d := by
  simp [handleSeal, profile, failure]

theorem handleSeal_of_passing (profile : s.mode = .profile) (passes : sealFailure s = none) :
    handleSeal .loading [] s = { state := sealed s, reply := .ack [], head := [.mode .run .sealed] } := by
  simp [handleSeal, profile, passes]

theorem shownPosition_of_count {i : Inputs} (h : inputCount i = 1) : ∃ p, shownPosition i = some p := by
  obtain ⟨raised, mid, lowered⟩ := i
  cases raised <;> cases mid <;> cases lowered <;> simp [inputCount] at h <;> exact ⟨_, rfl⟩

/-- In a profile that passes every defined section shows a position. -/
theorem shown_of_passing (passes : sealFailure s = none) {n : Nat} {c : Sect} (held : s.sections.get n = some c) :
    ∃ p, shownPosition (s.sectionInputs n) = some p := by
  have placed := (sealFailure_eq_none_iff.mp passes).2.2.2.2.2
  have here := List.findSome?_eq_none_iff.mp placed _ (Table.mem_of_get held)
  refine shownPosition_of_count ?_
  by_contra count
  simp [sectionUnplaced, count] at here

/-- The clearance of a lane at its start is its base clearance without a section, and otherwise what the
section's position gives (R37). -/
theorem startLane_eq (l : Lane) : ∃ k, startLane s l = { newLane l.profile with clearance := k } ∧
    (l.profile.relation.section? = none → k = l.profile.baseClearance) ∧
    ∀ m c p, l.profile.relation.section? = some m → s.sections.get m = some c →
      shownPosition (s.sectionInputs m) = some p →
      k = if l.isOn m then c.clearances.above p else c.clearances.beneath p := by
  unfold startLane
  dsimp only
  cases e : l.profile.relation.section? with
  | none => exact ⟨l.profile.baseClearance, rfl, fun _ => rfl, fun _ _ _ h => (nomatch h)⟩
  | some n =>
    dsimp only
    cases held : s.sections.get n with
    | none =>
      refine ⟨l.profile.baseClearance, rfl, fun h => (nomatch h), fun m c p h hc => ?_⟩
      obtain rfl := Option.some.inj h
      exact absurd (held.symm.trans hc) (by simp)
    | some c =>
      cases shown : shownPosition (s.sectionInputs n) with
      | none =>
        refine ⟨l.profile.baseClearance, rfl, fun h => (nomatch h), fun m c' p h hc hp => ?_⟩
        obtain rfl := Option.some.inj h
        exact absurd (shown.symm.trans hp) (by simp)
      | some p =>
        refine ⟨(newLane l.profile).clearanceAt c.clearances n p, rfl, fun h => (nomatch h), fun m c' p' h hc hp => ?_⟩
        obtain rfl := Option.some.inj h
        obtain rfl := Option.some.inj (held.symm.trans hc)
        obtain rfl := Option.some.inj (shown.symm.trans hp)
        rfl

/-- The event of a SEAL runs no pass, since nothing waits, and reports no lane. -/
theorem finish_sealed (unsealed : s.isSealed = false) (r : Option (Station × Frame)) (head : List Notice) :
    (sealed s).finish s r head [] false =
      ((((sealed s).answer r).sendAll head).reviseAccount s).releaseAll.commit := by
  rw [State.finish_without_pass _ _ _ _ _ _ (.inr (.inr rfl))]
  simp [State.report, watchedReports, State.reviseLanes, lanesWatched_of_unsealed unsealed, State.settleEvent]

end

/-- The account block after any event, its revision apart. -/
theorem State.reviseAccount_unrevised (s s0 : State) :
    { (s.reviseAccount s0).account with revision := 0 } = { s.account with revision := 0 } := by
  unfold State.reviseAccount
  split <;> rfl

/-- Settles O27: a SEAL that passes ends in the state of Table 1-8 with its reply and its notice placed. -/
theorem sealStartsThePlan : Obligations.SealStartsThePlan := by
  intro s f o tables ok profile
  refine ⟨fun d failure => .of_handle rfl o tables (handleSeal_of_failure (s := s.popMailbox .loading) profile failure),
    fun passes => ?_⟩
  refine Answers.of_handle rfl o (handleSeal_of_passing (s := s.popMailbox .loading) profile passes) rfl rfl ?_
  dsimp only
  rw [finish_sealed (s := s.popMailbox .loading) (State.unsealed_of_profile ok profile)]
  generalize hq : (sealed (s.popMailbox .loading)).answer _ = q
  obtain ⟨links, rfl⟩ : ∃ links, q = (sealed s).relinked links s.store :=
    ⟨q.links, by rw [← hq, State.answer_relinked]; rfl⟩
  simp only [State.commit_lanes, State.commit_isSealed, State.releaseAll_lanes, State.reviseAccount_lanes, State.sendAll_lanes]
  refine ⟨?_, ?_, ?_, fun n l held => ?lane, ?_, ?_, ?_, fun n c held => ?sect, ?_, ?_, ?_, ?_, ?_, ?_, ?_, ?_, ?_, ?_, ?_, ?_⟩
  case lane =>
    obtain ⟨k, fresh, base, shown⟩ := startLane_eq (s := s) l
    refine ⟨k, ?_, base, shown⟩
    refine (Table.get_mapAll _ _ _).trans ?_
    rw [held, Option.map_some, fresh]
    rfl
  case sect =>
    obtain ⟨p, shown⟩ := shown_of_passing (s := s) passes held
    refine ⟨p, shown, ?_⟩
    simp only [State.commit_sections, State.releaseAll_sections, State.reviseAccount_sections, State.sendAll_sections]
    refine (Table.get_mapWith s.sections (fun c => startSection s c.1 c.2) n).trans ?_
    rw [held, Option.map_some, startSection, shown]
  all_goals simp [State.relinked, sealed, newRamp, State.reviseAccount_unrevised, Table.mapAll]

/-! CLEAR_PLAN (R16, R17) -/

section
variable {s : State}

theorem handleClearPlan_of_profile (profile : s.mode = .profile) :
    handleClearPlan .loading [] s = acknowledge s.eraseProfile [] := by
  simp [handleClearPlan, profile]

theorem handleClearPlan_of_occupied (mode : s.mode ≠ .profile)
    (occupied : (∃ p ∈ s.lanes, p.2.entries ≠ [] ∨ p.2.check ≠ none) ∨ s.movements ≠ []) :
    handleClearPlan .loading [] s = refuse s .notEmpty := by
  have full : (s.lanes.any (fun l => l.2.occupied) || !s.movements.isEmpty) = true := by
    rcases occupied with ⟨p, hp, holds⟩ | moving
    · rw [Bool.or_eq_true, List.any_eq_true]
      refine .inl ⟨p, hp, ?_⟩
      rw [← Bool.not_eq_false, Lane.occupied_false]
      tauto
    · simp [moving]
  simp only [handleClearPlan, mode, full]
  rfl

theorem handleClearPlan_of_empty (mode : s.mode ≠ .profile) (empty : ∀ p ∈ s.lanes, p.2.entries = [] ∧ p.2.check = none)
    (movements : s.movements = []) :
    handleClearPlan .loading [] s =
      if s.sections.any fun c => decide (c.2.state = .moving) then refuse s .busy
      else { state := s.clearPlan, reply := .ack [], head := [.mode .profile .clearPlan] } := by
  have vacant : (s.lanes.any (fun l => l.2.occupied) || !s.movements.isEmpty) = false := by
    simpa [movements] using fun n l hl => Lane.occupied_false.mpr (empty (n, l) hl)
  simp only [handleClearPlan, mode, vacant]
  rfl

end

/-- The erased profile is unsealed and has no zones. -/
theorem Redefines.erased {s t : State} (unsealed : t.isSealed = false) (mode : t.mode ≠ .run) (account : t.account = s.account)
    (heff : t.heff = s.heff) (zones : t.zones = []) : Redefines s t :=
  ⟨by simp [lanesWatched, unsealed], mode, account, heff, fun _ hp => absurd (zones ▸ hp) List.not_mem_nil⟩

theorem State.clearPlan_mode (s : State) : s.clearPlan.mode ≠ .run := by
  unfold State.mode
  split
  · nofun
  · exact nofun

/-- Settles O28. -/
theorem clearPlanEmptiesThePlan : Obligations.ClearPlanEmptiesThePlan := by
  intro s f o tables
  refine ⟨fun profile => ?profile, fun plan => ⟨fun occupied => ?full, fun empty movements => ⟨fun moving => ?busy,
    fun still => ?clears⟩⟩⟩
  case profile =>
    refine State.takeKind_redefines o _ (handleClearPlan_of_profile (s := s.popMailbox .loading) profile)
      (.erased rfl ?_ rfl rfl rfl)
    exact fun run => absurd (profile.symm.trans run) (by decide)
  all_goals have mode : (s.popMailbox .loading).mode ≠ .profile := State.ne_profile_of_planMode plan
  case full => exact .of_handle rfl o tables (handleClearPlan_of_occupied mode occupied)
  case busy =>
    refine .of_handle rfl o tables ((handleClearPlan_of_empty mode empty movements).trans (if_pos ?_))
    simpa using moving
  case clears =>
    refine State.takeKind_redefines o _ ((handleClearPlan_of_empty mode empty movements).trans (if_neg ?_))
      (.erased rfl (State.clearPlan_mode _) rfl rfl rfl)
    simpa using fun n c hc => still (n, c) hc

end Sys2Proof.Machine

/-! CLOSE_LANE, OPEN_LANE, SET_PRIORITY, SET_MASK, the ramp requests and BAND, with what every event does with
the lanes and the account it changes (spec/02 R29, R31 to R34, spec/04 R60, R61, R75, spec/05 R80 to R82,
spec/07 R125 to R128). -/

namespace Sys2Proof.Machine

/-- A request whose handler leaves `b`, links and image apart, written out. -/
theorem AnswersWith.of_taken {c : Instr} {s b : State} {st : Station} {code : Nat} {p : List Byte} {f : Frame}
    {handle : Station → List Byte → State → Taken} {x : State} {r : Reply} {head tail : List Notice} {named : Bool}
    (hc : exec c s = s.takeKind st code handle) (o : s.Offers st code p f)
    (h : handle st p (s.popMailbox st) = { state := x, reply := r, head := head, tail := tail, trigger := named })
    (hx : x = b.relinked (s.popMailbox st).links s.store) (hs : b.stations = s.stations) :
    AnswersWith c s st f r head tail b named := by
  subst hx
  let k : Taken := { state := b.relinked (s.popMailbox st).links s.store, reply := r, head := head, tail := tail, trigger := named }
  have answers := AnswersWith.of_handle (k := k) hc o h rfl rfl hs
  exact answers

/-! The closed flag (R31, R32) -/

theorem exec_setClosed {c : Instr} {code : Nat} {st : Station} {s : State} {n : Nat} {l : Lane} {f : Frame} {flag : Bool}
    {handle : Station → List Byte → State → Taken} (hc : exec c s = s.takeKind st code handle)
    (closes : ∀ p t, handle st p t = laneRequest st p t (setClosed flag t)) (o : s.Offers st code (u8 n) f)
    (plan : s.planMode = true) (number : laneNumberOk n = true) (held : s.lanes.get n = some l) (reached : s.MayName st n) :
    AnswersWith c s st f (.ack (u8 (displayedCode (s.displayed { l with closed := flag })) ++ u8 (flagCode l.inService)))
      [] [] { s with lanes := s.lanes.modify n fun q => { q with closed := flag } } false := by
  exact .of_taken hc o ((closes (u8 n) (s.popMailbox st)).trans (laneRequest_of_lane (s := s.popMailbox st) reached
    (State.ne_profile_of_planMode plan) number held)) rfl rfl

/-! The lanes an event changes (R29, R34) -/

theorem contentChanged_false_iff {s b : State} {l0 l : Lane} : contentChanged s b l0 l = false ↔
    l.entries = l0.entries ∧ l.check = l0.check ∧ l.closed = l0.closed ∧ l.level = l0.level ∧
      b.displayed l = s.displayed l0 := by
  rw [eq_comm (a := l.entries), eq_comm (a := l.check), eq_comm (a := l.closed), eq_comm (a := l.level),
    eq_comm (a := b.displayed l)]
  simp [contentChanged, and_assoc]

theorem reportChanged_false_iff {s b : State} {l0 l : Lane} : reportChanged s b l0 l = false ↔
    b.displayed l = s.displayed l0 ∧ l.inService = l0.inService ∧ l.entries.length = l0.entries.length := by
  rw [eq_comm (a := b.displayed l), eq_comm (a := l.inService), eq_comm (a := l.entries.length)]
  simp [reportChanged, and_assoc]

theorem revisedLane_of_defined {s b : State} {n : Nat} {l0 : Lane} (held : s.lanes.get n = some l0) (l : Lane) :
    (revisedLane s b (n, l)).2 = { l with
      revision :=
        if l.entries = l0.entries ∧ l.check = l0.check ∧ l.closed = l0.closed ∧ l.level = l0.level ∧
            b.displayed l = s.displayed l0 then l.revision
        else (l.revision + 1) % 65536 } := by
  have revised : revisedLane s b (n, l) = if contentChanged s b l0 l then (n, l.revise) else (n, l) := by
    unfold revisedLane
    dsimp only
    rw [held]
  rw [revised]
  by_cases same : contentChanged s b l0 l = false
  · rw [if_neg (by simp [same]), if_pos (contentChanged_false_iff.mp same)]
  · rw [if_pos (by simpa using same), if_neg (mt contentChanged_false_iff.mpr same)]
    rfl

theorem revisedLane_pair (s b : State) : revisedLane s b = fun p => (p.1, (revisedLane s b p).2) :=
  funext fun p => Prod.ext (revisedLane_number s b p) rfl

/-- A rising table gone through from its lowest number on. -/
theorem Table.filterMap_numbers {α β : Type} {t : Table α} (f : Nat × α → Option β) (last lo : Nat)
    (rising : t.risingAbove lo = true) (top : ∀ p ∈ t, p.1 ≤ lo + last) :
    t.filterMap f = (List.range' (lo + 1) last).filterMap fun n => (t.get n).bind fun a => f (n, a) := by
  induction last generalizing t lo with
  | zero =>
    cases t with
    | nil => rfl
    | cons p rest =>
      have low := top p List.mem_cons_self
      simp only [Table.risingAbove, Bool.and_eq_true, decide_eq_true_eq] at rising
      omega
  | succ last ih =>
    rw [List.range'_succ]
    by_cases first : ∃ a rest, t = (lo + 1, a) :: rest
    · obtain ⟨a, rest, rfl⟩ := first
      simp only [Table.risingAbove, Bool.and_eq_true] at rising
      have later : (List.range' (lo + 1 + 1) last).filterMap (fun n => (Table.get ((lo + 1, a) :: rest) n).bind fun a => f (n, a)) =
          (List.range' (lo + 1 + 1) last).filterMap fun n => (Table.get rest n).bind fun a => f (n, a) := by
        refine List.filterMap_congr fun n hn => ?_
        have : lo + 1 ≠ n := by
          have := List.mem_range'_1.mp hn
          omega
        simp [Table.get, this]
      have here : Table.get ((lo + 1, a) :: rest) (lo + 1) = some a := by simp [Table.get]
      rw [List.filterMap_cons, List.filterMap_cons, later, here,
        ih (lo + 1) rising.2 fun p hp => by have := top p (.tail _ hp); omega]
      rfl
    · have above : t.risingAbove (lo + 1) = true := by
        cases t with
        | nil => rfl
        | cons p rest =>
          obtain ⟨k, a⟩ := p
          have : k ≠ lo + 1 := fun e => first ⟨a, rest, by rw [e]⟩
          simp only [Table.risingAbove, Bool.and_eq_true, decide_eq_true_eq] at rising ⊢
          exact ⟨by omega, rising.2⟩
      rw [List.filterMap_cons, Table.get_of_le above (Nat.le_refl _),
        ih (lo + 1) above fun p hp => by have := top p hp; omega]
      rfl

theorem State.reviseLanes_of_unwatched {s b : State} (h : s.isSealed = false ∨ b.isSealed = false) :
    b.reviseLanes s = b ∧ watchedReports s b (b.reviseLanes s) = [] := by
  have unwatched : lanesWatched s b = false := by
    rcases h with h | h <;> simp [lanesWatched, h]
  simp [State.reviseLanes, watchedReports, unwatched]

theorem laneReports_eq {s b : State} (tables : b.tablesOk = true) :
    laneReports s (b.reviseFrom s) = (List.range' 1 48).filterMap fun n =>
      (s.lanes.get n).bind fun l0 => ((b.reviseFrom s).lanes.get n).bind fun l =>
        if (b.reviseFrom s).displayed l = s.displayed l0 ∧ l.inService = l0.inService ∧
            l.entries.length = l0.entries.length then none
        else some (.laneState n ((b.reviseFrom s).displayed l) l.inService l.entries.length
          ((b.reviseFrom s).laneEnd l) ((b.reviseFrom s).lamp l) l.revision) := by
  have wf := (State.wf_of_tablesOk tables).1
  have numbers : (b.reviseFrom s).lanes.wf Config.laneCount = true := by
    rw [Table.wf_congr _ b.lanes _ (by simp [State.reviseFrom, Function.comp_def, revisedLane_number])]
    exact wf
  obtain ⟨rising, top⟩ : (b.reviseFrom s).lanes.risingAbove 0 = true ∧ ∀ p ∈ (b.reviseFrom s).lanes, p.1 ≤ Config.laneCount := by
    simpa only [Table.wf, Bool.and_eq_true, List.all_eq_true, decide_eq_true_eq] using numbers
  rw [laneReports, Table.filterMap_numbers _ 48 0 rising fun p hp => (top p hp).trans (by decide)]
  refine List.filterMap_congr fun n _ => ?_
  cases defined : Table.get (b.reviseFrom s).lanes n with
  | none => cases s.lanes.get n <;> rfl
  | some l =>
    cases held : s.lanes.get n with
    | none => simp [laneReport, held]
    | some l0 =>
      simp only [laneReport, held, Option.bind_some, ← reportChanged_false_iff]
      cases reportChanged s (b.reviseFrom s) l0 l <;> rfl

/-- Settles O29: CLOSE_LANE and OPEN_LANE are requests for a lane, and the revisions and reports of an event are
those of its changed lanes. -/
theorem lanesAreClosedAndOpened : Obligations.LanesAreClosedAndOpened := by
  refine ⟨fun st s n l f plan number held reached => ⟨fun o => ?_, fun o => ?_⟩,
    fun s b before after => ⟨State.reviseLanes_of_unwatched, fun sealed0 sealed1 => ?_⟩⟩
  · exact exec_setClosed (c := .closeLane st) rfl (fun _ _ => rfl) o plan number held reached
  · exact exec_setClosed (c := .openLane st) rfl (fun _ _ => rfl) o plan number held reached
  · have watched : lanesWatched s b = true := by simp [lanesWatched, sealed0, sealed1]
    have revises : b.reviseLanes s = b.reviseFrom s := if_pos watched
    simp only [revises, watchedReports, watched, if_true]
    refine ⟨rfl, by simp [State.reviseFrom, Function.comp_def, revisedLane_number], fun n l0 l held0 held => ?_,
      laneReports_eq after⟩
    rw [State.reviseFrom, revisedLane_pair]
    refine (Table.get_mapWith b.lanes (fun p => (revisedLane s b p).2) n).trans ?_
    rw [held, Option.map_some, revisedLane_of_defined held0]

/-! Levels, masks and suspensions (R80 to R82) -/

section
variable {s : State} {n m : Nat}

theorem handleSetPriority_of_lane (mode : s.mode ≠ .profile) (number : laneNumberOk n = true) (level : m ≤ 7) {l : Lane}
    (held : s.lanes.get n = some l) : handleSetPriority .yard (u8 n ++ u8 m) s =
      { state := s.onLane n fun q => { q with level := m }, reply := .ack (u8 n ++ u8 m), trigger := true } := by
  simp [handleSetPriority, mode, natOf_field_u8_front (laneNumberOk_small number),
    natOf_field_u8_second n (show m < 256 by omega), number, level, held]

theorem handleSetMask_of_ramp (mode : s.mode ≠ .profile) (number : rampNumberOk n = true) (mask : m ≤ 7) {row : Ramp}
    (fitted : s.fittedRamp n = some row) : handleSetMask .yard (u8 n ++ u8 m) s =
      { state := s.onRamp n fun q => { q with mask := m }, reply := .ack (u8 n ++ u8 m), trigger := true } := by
  simp [handleSetMask, mode, natOf_field_u8_front (rampNumberOk_small number),
    natOf_field_u8_second n (show m < 256 by omega), number, mask, fitted]

theorem setSuspended_of_ramp (flag : Bool) (mode : s.mode ≠ .profile) (number : rampNumberOk n = true) {row : Ramp}
    (fitted : s.fittedRamp n = some row) : setSuspended flag .loading (u8 n) s =
      { state := s.onRamp n fun q => { q with suspended := flag },
        reply := .ack (u8 n ++ u8 (flagCode flag) ++ u8 row.count), trigger := !flag } := by
  simp [setSuspended, mode, natOf_field_u8 (rampNumberOk_small number), number, fitted]

end

/-! The re-examination pass (R125 to R128) -/

section
variable {s b : State}

theorem Displayed.offered_iff (d : Displayed) : d.offered = true ↔ d = .openLane ∨ d = .filling := by
  cases d <;> simp [Displayed.offered]

theorem becameOffered_iff (tables : b.tablesOk = true) : becameOffered s b = true ↔ ∃ n l0 l, s.lanes.get n = some l0 ∧
    b.lanes.get n = some l ∧ b.displayed l ≠ s.displayed l0 ∧ (b.displayed l = .openLane ∨ b.displayed l = .filling) := by
  have mem := Table.mem_iff_get (State.wf_of_tablesOk tables).1
  have newly (n : Nat) (l0 l : Lane) (held : s.lanes.get n = some l0) : newlyOffered s b (n, l) = true ↔
      b.displayed l ≠ s.displayed l0 ∧ (b.displayed l = .openLane ∨ b.displayed l = .filling) := by
    unfold newlyOffered
    dsimp only
    rw [held, ← Displayed.offered_iff, Bool.and_eq_true, decide_eq_true_eq, ne_comm]
  rw [becameOffered, List.any_eq_true]
  constructor
  · rintro ⟨⟨n, l⟩, hp, offered⟩
    cases held : s.lanes.get n with
    | none => simp [newlyOffered, held] at offered
    | some l0 => exact ⟨n, l0, l, held, (mem n l).mp hp, (newly n l0 l held).mp offered⟩
  · rintro ⟨n, l0, l, held0, held, offered⟩
    exact ⟨(n, l), (mem n l).mpr held, (newly n l0 l held0).mpr offered⟩

theorem triggered_iff (tables : b.tablesOk = true) (named : Bool) : triggered s b named = true ↔
    named = true ∨ (s.mode ≠ .run ∧ b.mode = .run) ∨
      s.isSealed = true ∧ b.isSealed = true ∧ ∃ n l0 l, s.lanes.get n = some l0 ∧ b.lanes.get n = some l ∧
        b.displayed l ≠ s.displayed l0 ∧ (b.displayed l = .openLane ∨ b.displayed l = .filling) := by
  rw [← becameOffered_iff tables]
  simp only [triggered, lanesWatched, Bool.or_eq_true, Bool.and_eq_true, decide_eq_true_eq, ne_eq]
  tauto

/-- A pass gathers the notices of its elements in their order. -/
theorem State.passOver_foldl (ws : List Waiting) (ns : List Notice) :
    ((s.passOver ws).1, ns ++ (s.passOver ws).2) =
      ws.foldl (fun p w => ((p.1.passElement w).1, p.2 ++ (p.1.passElement w).2)) (s, ns) := by
  induction ws generalizing s ns with
  | nil => simp [State.passOver]
  | cons w rest ih =>
    rw [List.foldl_cons, ← ih]
    simp [State.passOver]

theorem Table.modify_modify {α : Type} (t : Table α) (n : Nat) (f g : α → α) :
    (t.modify n f).modify n g = t.modify n fun a => g (f a) := by
  simp only [Table.modify, List.map_map]
  refine List.map_congr_left fun p _ => ?_
  by_cases e : p.1 = n <;> simp [e]

end

section
variable {s : State} {w : Waiting} {row : Ramp} {unit : UnitRecord} (fitted : s.fittedRamp w.ramp = some row)
  (record : s.findRecord w.booking = some unit)
include fitted record

theorem State.passElement_of_suspended (suspended : row.suspended = true) : s.passElement w = (s, []) := by
  simp [State.passElement, fitted, record, suspended]

theorem State.passElement_of_held (free : row.suspended = false) {rs : Reasons}
    (held : s.evaluate row unit.body = .held rs) : s.passElement w = s.failExamination w rs := by
  simp [State.passElement, fitted, record, free, held]

theorem State.passElement_of_chosen (free : row.suspended = false) {n : Nat} {l : Lane}
    (chosen : s.evaluate row unit.body = .chosen n) (lane : s.lanes.get n = some l) :
    s.passElement w = s.admitWaiting w unit.body n l := by
  simp [State.passElement, fitted, record, free, chosen, lane]

end

/-- A lane with the unit of an admission at its end, revised. -/
def Lane.admitting (b : Booking) (u : UnitBody) (offset : Nat) (l : Lane) : Lane :=
  { l with
    entries := l.entries ++ [{ booking := b, unit := u, offset := offset, state := .reserved }]
    revision := (l.revision + 1) % 65536 }

theorem Lane.admitting_inService (b : Booking) (u : UnitBody) (offset : Nat) (l : Lane) :
    (l.admitting b u offset).inService = true := by
  simp [Lane.inService, Lane.admitting]

theorem State.lamp_of_inService (s : State) {l : Lane} (h : l.inService = true) : s.lamp l = .green := by
  rw [State.lamp, if_pos h]

/-- The lanes after an admission: the one lane grown and revised. -/
theorem State.admitWaiting_lanes (s : State) (w : Waiting) (u : UnitBody) (n : Nat) (l : Lane) :
    (s.admitWaiting w u n l).1.lanes = s.lanes.modify n (Lane.admitting w.booking u (s.laneEnd l)) :=
  Table.modify_modify s.lanes n (fun q : Lane =>
    { q with entries := q.entries ++ [{ booking := w.booking, unit := u, offset := s.laneEnd l, state := .reserved }] })
    Lane.revise

theorem State.admitWaiting_notices (s : State) (w : Waiting) (u : UnitBody) {n : Nat} {l : Lane}
    (held : s.lanes.get n = some l) :
    let t := (s.admitWaiting w u n l).1
    let grown := l.admitting w.booking u (s.laneEnd l)
    (s.admitWaiting w u n l).2 =
      [.assigned w.ramp w.booking n (s.laneEnd l) (l.profile.centre (s.laneEnd l) u.length) s.seqNext w.retries,
        .laneState n (t.displayed grown) true (l.entries.length + 1) (t.laneEnd grown) .green ((l.revision + 1) % 65536)] := by
  intro t grown
  have here : t.lanes.get n = some grown := by
    rw [State.admitWaiting_lanes, Table.get_modify, if_pos rfl, held]
    rfl
  have notices : (s.admitWaiting w u n l).2 =
      .assigned w.ramp w.booking n (s.laneEnd l) (l.profile.centre (s.laneEnd l) u.length) s.seqNext w.retries ::
        (t.lanes.get n).toList.map (t.laneNotice n) := rfl
  have serving : grown.inService = true := Lane.admitting_inService w.booking u (s.laneEnd l) l
  have lamp : t.lamp grown = .green := State.lamp_of_inService t serving
  rw [notices, here]
  simp only [Option.toList_some, List.map_cons, List.map_nil, State.laneNotice, lamp, serving,
    show grown.entries.length = l.entries.length + 1 from List.length_append]
  rfl

/-- Settles O30: the four requests store their values; what raises a trigger, how a pass goes through the list, and
what it does with each element are read off their definitions. -/
theorem levelsMasksAndSuspensionsAreSet : Obligations.LevelsMasksAndSuspensionsAreSet := by
  refine ⟨fun s n level l f o plan number small held => ?level, fun s r mask row f o plan number small fitted => ?mask,
    fun s r row f o tables plan number fitted => ?suspend, fun s r row f o plan number fitted => ?resume,
    fun s b named tables => triggered_iff tables named, fun s => ⟨State.runPass_passedInto s, fun barred => ?barred,
      fun run clear => ?pass⟩, fun s w row unit fitted record => ⟨State.passElement_of_suspended fitted record,
      fun free => ⟨fun rs held => ⟨fun few => ?fails, fun many => ?excludes⟩, fun n l chosen lane => ?admits⟩⟩⟩
  case level =>
    have mode : (s.popMailbox .yard).mode ≠ .profile := State.ne_profile_of_planMode plan
    exact .of_taken rfl o (handleSetPriority_of_lane mode number small held) rfl rfl
  case mask =>
    have mode : (s.popMailbox .yard).mode ≠ .profile := State.ne_profile_of_planMode plan
    exact .of_taken rfl o (handleSetMask_of_ramp mode number small fitted) rfl rfl
  case suspend =>
    have mode : (s.popMailbox .loading).mode ≠ .profile := State.ne_profile_of_planMode plan
    exact State.takeKind_quiet o handleSuspendRamp (setSuspended_of_ramp true mode number fitted) tables
      ⟨rfl, rfl, rfl, rfl, rfl, rfl, rfl⟩
  case resume =>
    have mode : (s.popMailbox .loading).mode ≠ .profile := State.ne_profile_of_planMode plan
    exact .of_taken (handle := handleResumeRamp) rfl o (setSuspended_of_ramp false mode number fitted) rfl rfl
  case barred =>
    refine State.runPass_of_not_allowed s ?_
    rcases barred with mode | stop <;> simp [State.passAllowed, *]
  case pass =>
    have allowed : s.passAllowed = true := by simp [State.passAllowed, run, clear]
    rw [State.runPass, if_pos allowed, ← State.passOver_foldl]
    rfl
  case fails =>
    have limit : Config.retryLimit = 16 := rfl
    rw [State.passElement_of_held fitted record free held, State.failExamination, if_neg (by omega)]
    rfl
  case excludes =>
    have limit : Config.retryLimit = 16 := rfl
    rw [State.passElement_of_held fitted record free held, State.failExamination, if_pos (by omega)]
    rfl
  case admits =>
    have reserved : (s.admitWaiting w unit.body n l).1 =
        { s with
          waiting := s.waiting.filter fun q => decide (q.booking ≠ w.booking)
          lanes := s.lanes.modify n (Lane.admitting w.booking unit.body (s.laneEnd l))
          poolInUse := s.poolInUse + 1
          account := s.account.addDelta (unit.body.mass * l.profile.arm)
          zones := onZone s.zones (s.slotZone l.profile (s.laneEnd l) unit.body.length) (Zone.addPending unit.body.mass)
          ramps := s.ramps.modify w.ramp fun q => { q with count := q.count + 1 }
          movements := s.movements ++
            [{ kind := .load, lane := n, ramp := w.ramp, booking := w.booking, mass := unit.body.mass,
               delta := unit.body.mass * l.profile.arm,
               zone := s.slotZone l.profile (s.laneEnd l) unit.body.length, offset := s.laneEnd l,
               seq := s.seqNext, seconds := s.timeout }]
          seqNext := if s.seqNext = 4294967295 then 1 else s.seqNext + 1
          register := s.register.map fun q => if q.booking = w.booking then { q with state := .reserved } else q } := by
      rw [← State.admitWaiting_lanes]
      rfl
    rw [State.passElement_of_chosen fitted record free chosen lane]
    exact Prod.ext reserved ((State.admitWaiting_notices s w unit.body lane).trans (by rw [reserved]; rfl))

/-! BAND (R60, R61) and the account revision (R75) -/

section
variable {s b : State}

theorem zones_any_changed_iff (tables : b.tablesOk = true) : b.zones.any (zoneChanged s) = true ↔
    ∃ n z0 z, s.zones.get n = some z0 ∧ b.zones.get n = some z ∧
      (z.confirmed ≠ z0.confirmed ∨ z.pendingLoad ≠ z0.pendingLoad) := by
  have mem := Table.mem_iff_get (State.wf_of_tablesOk tables).2.1
  have here (n : Nat) (z0 z : Zone) (held : s.zones.get n = some z0) : zoneChanged s (n, z) = true ↔
      (z.confirmed ≠ z0.confirmed ∨ z.pendingLoad ≠ z0.pendingLoad) := by
    unfold zoneChanged
    dsimp only
    rw [held, Bool.or_eq_true, decide_eq_true_eq, decide_eq_true_eq, ne_comm, ne_comm (a := z0.pendingLoad)]
  rw [List.any_eq_true]
  constructor
  · rintro ⟨⟨n, z⟩, hp, changed⟩
    cases held : s.zones.get n with
    | none => simp [zoneChanged, held] at changed
    | some z0 => exact ⟨n, z0, z, held, (mem n z).mp hp, (here n z0 z held).mp changed⟩
  · rintro ⟨n, z0, z, held0, held, changed⟩
    exact ⟨(n, z), (mem n z).mpr held, (here n z0 z held0).mpr changed⟩

theorem accountChanged_iff (tables : b.tablesOk = true) : accountChanged s b = true ↔
    b.account.tc ≠ s.account.tc ∨ b.account.pPlus ≠ s.account.pPlus ∨ b.account.pMinus ≠ s.account.pMinus ∨
      b.account.kp ≠ s.account.kp ∨ b.account.ks ≠ s.account.ks ∨ b.account.h ≠ s.account.h ∨ b.heff ≠ s.heff ∨
      ∃ n z0 z, s.zones.get n = some z0 ∧ b.zones.get n = some z ∧
        (z.confirmed ≠ z0.confirmed ∨ z.pendingLoad ≠ z0.pendingLoad) := by
  rw [← zones_any_changed_iff tables]
  simp only [accountChanged, Bool.or_eq_true, decide_eq_true_eq, or_assoc, ne_comm (a := s.account.tc),
    ne_comm (a := s.account.pPlus), ne_comm (a := s.account.pMinus), ne_comm (a := s.account.kp),
    ne_comm (a := s.account.ks), ne_comm (a := s.account.h), ne_comm (a := s.heff)]

end

/-- The three fields of four bytes of a BAND. -/
theorem field_words (a b c : List Byte) (ha : a.length = 4) (hb : b.length = 4) (hc : c.length = 4) :
    field (a ++ b ++ c) 0 4 = a ∧ field (a ++ b ++ c) 4 4 = b ∧ field (a ++ b ++ c) 8 4 = c := by
  refine ⟨?_, ?_, ?_⟩
  · rw [List.append_assoc, field_append _ _ ha]
  · rw [List.append_assoc, field_skip a (b ++ c) 0 4 ha, field_append _ _ hb]
  · exact (field_skip (a ++ b) c 0 4 (by rw [List.length_append, ha, hb])).trans (field_whole c hc)

/-- The state with a band in place of its own. -/
def State.banded (s : State) (kp ks h : Int) : State :=
  { s with account := { s.account with
      kp := clampInt 0 400000000 kp, ks := clampInt 0 400000000 ks, h := clampInt 0 50000000 h } }

theorem handleBand_eq (s : State) {kp ks h : Int} (kp0 : -2147483648 ≤ kp) (kp1 : kp < 2147483648)
    (ks0 : -2147483648 ≤ ks) (ks1 : ks < 2147483648) (h0 : -2147483648 ≤ h) (h1 : h < 2147483648) :
    handleBand .loading (i32 kp ++ i32 ks ++ i32 h) s =
      { state := s.banded kp ks h, reply := .ack (bandReply (s.banded kp ks h)),
        head := (s.banded kp ks h).overshoot false, trigger := (s.banded kp ks h).planMode } := by
  obtain ⟨first, second, third⟩ := field_words (i32 kp) (i32 ks) (i32 h) rfl rfl rfl
  simp only [handleBand, first, second, third, intOf_i32 kp0 kp1, intOf_i32 ks0 ks1, intOf_i32 h0 h1]
  rfl

/-- Settles O31: BAND replaces the band alone, and the account revision follows what the event changed. -/
theorem bandIsSetAndChecked : Obligations.BandIsSetAndChecked := by
  refine ⟨fun s f kp ks h kp0 kp1 ks0 ks1 h0 h1 o => ?band, fun s b tables => ⟨fun changed => ?changed, fun same => ?same⟩⟩
  case band =>
    exact .of_taken rfl o (handleBand_eq (s.popMailbox .loading) kp0 kp1 ks0 ks1 h0 h1) rfl rfl
  case changed => rw [State.reviseAccount, if_pos ((accountChanged_iff tables).mpr changed)]
  case same => rw [State.reviseAccount, if_neg (mt (accountChanged_iff tables).mp same)]

end Sys2Proof.Machine

/-! The Heel Monitor (spec/04 R64 to R74): HEEL_MODEL, TANKS, SAMPLE, RELEASE_STOP and the rounding of the heels.
Settling the counts for a change of monitor state changes nothing where the counts stand at 0 outside ACTIVE
already, which the monitor's law says. -/

namespace Sys2Proof.Machine

/-! Events that change the monitor alone -/

theorem State.event_quiet {s t : State} (tables : s.tablesOk = true) (q : QuietFrom s t) (head : List Notice) :
    t.event s head [] = .next (t.endedWith head) := by
  rw [State.event, State.finish_quiet tables q]
  simp [State.endedWith, State.answer]

theorem State.monitored_quiet (s : State) (m : Monitor) : QuietFrom s { s with monitor := m } :=
  ⟨rfl, rfl, rfl, rfl, rfl, rfl, rfl⟩

/-! Settling the counts (R71) -/

section
variable {before : MonitorState} {m : Monitor}

theorem Monitor.cleared_eq (qualified : m.qualified = 0) (divergence : m.divergence = 0) :
    { m with qualified := 0, divergence := 0 } = m := by
  obtain ⟨kh, offset, tolerance, tank, history, rail, q, d, stop⟩ := m
  simp_all

theorem Monitor.settle_of_active (active : m.state = .active) (counts : before = .active ∨ m.qualified = 0) :
    m.settle before = m := by
  obtain rfl | zero := counts
  · simp [Monitor.settle, active]
  · rw [Monitor.settle, if_neg (by simp [active])]
    split
    · rw [← zero]
    · rfl

theorem Monitor.settle_of_inactive (inactive : m.state ≠ .active)
    (counts : before = .active ∨ m.qualified = 0 ∧ m.divergence = 0) :
    m.settle before = { m with qualified := 0, divergence := 0 } := by
  obtain rfl | ⟨qualified, divergence⟩ := counts
  · rw [Monitor.settle, if_pos ⟨rfl, inactive⟩]
  · have same := Monitor.cleared_eq qualified divergence
    rw [same, Monitor.settle]
    split
    · rw [← same]
    · rw [if_neg (by simp [inactive])]

theorem Monitor.settle_of_cleared (qualified : m.qualified = 0) (divergence : m.divergence = 0) :
    m.settle before = m := by
  by_cases active : m.state = .active
  · exact Monitor.settle_of_active active (.inr qualified)
  · rw [Monitor.settle_of_inactive active (.inr ⟨qualified, divergence⟩),
      Monitor.cleared_eq qualified divergence]

theorem Monitor.counts_of_ok (ok : m.ok = true) : m.state = .active ∨ m.qualified = 0 ∧ m.divergence = 0 := by
  obtain ⟨-, -, -, -, -, counts⟩ := (Monitor.ok_iff _).mp ok
  exact counts

theorem Monitor.state_active_iff : m.state = .active ↔
    m.kh ≠ 0 ∧ (∃ r, m.tank = some r ∧ r.stale = false) ∧ m.railed = false := by
  unfold Monitor.state
  cases m.tank with
  | none => split <;> simp
  | some r => cases e : r.stale <;> cases m.railed <;> split_ifs <;> simp_all

end

/-! HEEL_MODEL, TANKS and the expiry of the report (R64 to R66) -/

theorem handleHeelModel_eq (s : State) {kh : Nat} {offset tolerance : Int} (small : kh < 65536) (offset0 : -32768 ≤ offset)
    (offset1 : offset < 32768) (tolerance0 : -32768 ≤ tolerance) (tolerance1 : tolerance < 32768) :
    let m : Monitor := { s.monitor with
      kh := kh, offset := clampInt (-200) 200 offset, tolerance := clampInt 5 500 tolerance
      history := [], qualified := 0, divergence := 0 }
    handleHeelModel .loading (u16 kh ++ i16 offset ++ i16 tolerance) s =
      { state := { s with monitor := m }, reply := .ack (u16 m.kh ++ i16 m.offset ++ i16 m.tolerance),
        head := monitorNotices s.monitor m } := by
  intro m
  have first : natOf (field (u16 kh ++ i16 offset ++ i16 tolerance) 0 2) = kh :=
    (congrArg natOf (show field (u16 kh ++ i16 offset ++ i16 tolerance) 0 2 = u16 kh from rfl)).trans (natOf_u16 small)
  have second : intOf (field (u16 kh ++ i16 offset ++ i16 tolerance) 2 2) = offset :=
    (congrArg intOf (show field (u16 kh ++ i16 offset ++ i16 tolerance) 2 2 = i16 offset from rfl)).trans
      (intOf_i16 offset0 offset1)
  have third : intOf (field (u16 kh ++ i16 offset ++ i16 tolerance) 4 2) = tolerance :=
    (congrArg intOf (show field (u16 kh ++ i16 offset ++ i16 tolerance) 4 2 = i16 tolerance from rfl)).trans
      (intOf_i16 tolerance0 tolerance1)
  have settled : s.withMonitor m = { s with monitor := m } := by
    rw [State.withMonitor, Monitor.settle_of_cleared rfl rfl]
  simp only [handleHeelModel, first, second, third]
  change Taken.mk (s.withMonitor m) _ _ _ _ = _
  rw [settled]

theorem Monitor.settle_tank {m : Monitor} (ok : m.ok = true) (ta : Int) :
    Monitor.settle m.state { m with tank := some { ta := ta, age := 0, stale := false } } =
      { m with tank := some { ta := ta, age := 0, stale := false } } := by
  by_cases active : ({ m with tank := some { ta := ta, age := 0, stale := false } } : Monitor).state = .active
  · exact Monitor.settle_of_active active ((Monitor.counts_of_ok ok).imp_right And.left)
  · have inactive : m.state ≠ .active := fun h => active (by
      obtain ⟨kh, -, rail⟩ := Monitor.state_active_iff.mp h
      exact Monitor.state_active_iff.mpr ⟨kh, ⟨_, rfl, rfl⟩, rail⟩)
    obtain ⟨qualified, divergence⟩ := (Monitor.counts_of_ok ok).resolve_left inactive
    exact Monitor.settle_of_cleared qualified divergence

theorem handleTanks_eq {s : State} (ok : s.monitor.ok = true) {ta : Int} (low : -2147483648 ≤ ta) (high : ta < 2147483648) :
    let m : Monitor := { s.monitor with tank := some { ta := clampInt (-400000000) 400000000 ta, age := 0, stale := false } }
    handleTanks .loading (i32 ta) s =
      { state := { s with monitor := m }, reply := .ack (i32 (clampInt (-400000000) 400000000 ta)),
        head := monitorNotices s.monitor m } := by
  intro m
  have value : intOf (field (i32 ta) 0 4) = ta := by rw [field_whole _ (i32_length ta), intOf_i32 low high]
  have settled : s.withMonitor m = { s with monitor := m } := by
    rw [State.withMonitor, Monitor.settle_tank ok]
  simp only [handleTanks, value]
  change Taken.mk (s.withMonitor m) _ _ _ _ = _
  rw [settled]

theorem Monitor.settle_expired {m : Monitor} (ok : m.ok = true) {r : TankReport} :
    Monitor.settle m.state { m with tank := some { r with stale := true } } =
      { m with tank := some { r with stale := true }, qualified := 0, divergence := 0 } :=
  Monitor.settle_of_inactive (fun h => by
    obtain ⟨-, ⟨q, hq, fresh⟩, -⟩ := Monitor.state_active_iff.mp h
    obtain rfl := Option.some.inj hq
    cases fresh) (Monitor.counts_of_ok ok)

theorem exec_tankReportExpiry_due {s : State} (working : s.working = true) (ok : s.monitor.ok = true) {r : TankReport}
    (held : s.monitor.tank = some r) (fresh : r.stale = false) (due : 30 ≤ r.age) :
    let m : Monitor := { s.monitor with tank := some { r with stale := true }, qualified := 0, divergence := 0 }
    exec .tankReportExpiry s = State.event { s with monitor := m } s (monitorNotices s.monitor m) [] := by
  intro m
  have expires : s.monitor.expiryDue = true := by
    simp [Monitor.expiryDue, held, fresh, Config.tankLimit, due]
  have settled : s.withMonitor { s.monitor with tank := s.monitor.tank.map fun r => { r with stale := true } } =
      { s with monitor := m } := by
    rw [State.withMonitor, held, Option.map_some, Monitor.settle_expired ok]
  change execTankReportExpiry s = _
  rw [execTankReportExpiry, if_pos ⟨working, expires⟩, settled]

/-- Settles O32. -/
theorem heelModelAndTanksAreTaken : Obligations.HeelModelAndTanksAreTaken := by
  refine ⟨fun s f kh offset tolerance small o0 o1 t0 t1 o tables => ?model, fun s f ta low high o tables ok => ?tanks,
    fun s r working tables ok held fresh due => ?expiry⟩
  case model =>
    exact State.takeKind_quiet o _ (handleHeelModel_eq (s.popMailbox .loading) small o0 o1 t0 t1) tables
      (State.monitored_quiet (s.popMailbox .loading) _)
  case tanks =>
    exact State.takeKind_quiet o _ (handleTanks_eq (s := s.popMailbox .loading) ok low high) tables
      (State.monitored_quiet (s.popMailbox .loading) _)
  case expiry =>
    exact (exec_tankReportExpiry_due working ok held fresh due).trans
      (State.event_quiet tables (State.monitored_quiet s _) _)

/-! Samples (R67, R68) -/

theorem exec_sample {s : State} (working : s.working = true) (code : BitVec 12) :
    exec (.sample code) s = (s.takeSample code.toNat).1.event s (s.takeSample code.toNat).2 [] :=
  if_pos working

theorem Monitor.takeRail_eq {m : Monitor} (ok : m.ok = true) :
    m.takeRail = if ({ m with rail := min 4 (m.rail + 1) } : Monitor).state = .active
      then { m with rail := min 4 (m.rail + 1) }
      else { m with rail := min 4 (m.rail + 1), qualified := 0, divergence := 0 } := by
  have counts := Monitor.counts_of_ok ok
  split
  · next active => exact Monitor.settle_of_active active (counts.imp_right And.left)
  · next inactive => exact Monitor.settle_of_inactive inactive counts

/-- The rail condition ends before the sample is used, which leaves the counts. -/
theorem Monitor.settle_valid {m : Monitor} (ok : m.ok = true) :
    Monitor.settle m.state { m with rail := 0 } = { m with rail := 0 } := by
  by_cases active : ({ m with rail := 0 } : Monitor).state = .active
  · exact Monitor.settle_of_active active ((Monitor.counts_of_ok ok).imp_right And.left)
  · have inactive : m.state ≠ .active := fun h => active (by
      obtain ⟨kh, tank, -⟩ := Monitor.state_active_iff.mp h
      exact Monitor.state_active_iff.mpr ⟨kh, tank, rfl⟩)
    obtain ⟨qualified, divergence⟩ := (Monitor.counts_of_ok ok).resolve_left inactive
    exact Monitor.settle_of_cleared qualified divergence

theorem Monitor.takeValid_sampled {m : Monitor} (ok : m.ok = true) (code : BitVec 12) :
    m.takeValid code.toNat = sampledMonitor m code := by
  unfold Monitor.takeValid
  rw [Monitor.settle_valid ok]
  rfl

theorem State.takeSample_of_rail {s : State} (ok : s.monitor.ok = true) {code : BitVec 12}
    (rail : code.toNat = 0 ∨ code.toNat = 4095) :
    let r : Monitor := { s.monitor with rail := min 4 (s.monitor.rail + 1) }
    let m : Monitor := if r.state = .active then r else { r with qualified := 0, divergence := 0 }
    s.takeSample code.toNat = ({ s with monitor := m }, monitorNotices s.monitor m) := by
  intro r m
  rw [State.takeSample, if_pos rail, Monitor.takeRail_eq ok]

theorem State.takeSample_of_valid {s : State} (ok : s.monitor.ok = true) {code : BitVec 12} (low : 0 < code.toNat)
    (high : code.toNat < 4095) :
    let t : State := { s with monitor := sampledMonitor s.monitor code }
    s.takeSample code.toNat = ((if t.compares then t.compareHeel else (t, [])).1,
      monitorNotices s.monitor t.monitor ++ (if t.compares then t.compareHeel else (t, [])).2) := by
  intro t
  rw [State.takeSample, if_neg (by omega), Monitor.takeValid_sampled ok]

theorem State.compares_iff (s : State) : s.compares = true ↔
    s.monitor.state = .active ∧ s.planMode = true ∧ s.monitor.qualified = 4 := by
  simp [State.compares, and_assoc]

/-- Settles O33. -/
theorem samplesAreTaken : Obligations.SamplesAreTaken := by
  intro s code working tables ok
  refine ⟨fun rail => ?rail, fun low high => ?valid⟩
  case rail =>
    rw [exec_sample working, State.takeSample_of_rail ok rail]
    exact State.event_quiet tables (State.monitored_quiet s _) _
  case valid =>
    intro m still
    have none_ : ¬ ({ s with monitor := m } : State).compares = true := mt (State.compares_iff _).mp still
    rw [exec_sample working, State.takeSample_of_valid ok low high]
    rw [if_neg none_, List.append_nil]
    exact State.event_quiet tables (State.monitored_quiet s _) _

/-! The comparison of the heels (R72 to R74) -/

/-- A comparison finds four samples in the history. -/
theorem sampledMonitor_history {m : Monitor} (ok : m.ok = true) {code : BitVec 12} (active : (sampledMonitor m code).state = .active)
    (qualified : (sampledMonitor m code).qualified = 4) : (sampledMonitor m code).history.length = 4 := by
  have counted : (sampledMonitor m code).qualified = min 4 (m.qualified + 1) := if_pos active
  have length : (sampledMonitor m code).history.length = m.history.length - (m.history.length - 3) + 1 := by
    simp [sampledMonitor]
  obtain ⟨short, -, -, -, held, -⟩ := (Monitor.ok_iff _).mp ok
  omega

theorem Monitor.measured_of_four {m : Monitor} (four : m.history.length = 4) : m.measured = some (roundDiv m.history.sum 4) :=
  if_pos four

theorem State.compareHeel_of_measured {s : State} {a : Int} (measured : s.monitor.measured = some a) :
    let count := if s.monitor.tolerance < (a - s.predicted).natAbs then min 4 (s.monitor.divergence + 1) else 0
    let sets := decide (count = 4) && decide (s.monitor.divergence ≠ 4) && !s.monitor.stop
    s.compareHeel = ({ s with monitor := { s.monitor with divergence := count, stop := s.monitor.stop || sets } },
      if sets then [.heelStop true (some a) s.predicted s.monitor.tolerance 4] else []) := by
  intro count sets
  unfold State.compareHeel
  rw [measured]
  dsimp only
  by_cases far : s.monitor.tolerance < (a - s.predicted).natAbs
  · have counted : count = min 4 (s.monitor.divergence + 1) := if_pos far
    rw [if_pos (show s.diverges a = true from decide_eq_true far)]
    split
    · next fourth =>
      obtain ⟨reached, ahead, clear⟩ := fourth
      have four : count = 4 := counted.trans reached
      have raised : sets = true := by simp [sets, four, ahead, clear]
      rw [raised, if_pos rfl, Bool.or_true, four]
      simp [State.stopNotice, Monitor.measured, State.predicted, State.netMoment] at measured ⊢
      exact measured
    · next barred =>
      have none_ : sets = false := by
        rw [← Bool.not_eq_true]
        simpa [sets, counted, and_assoc] using barred
      rw [none_, Bool.or_false, counted]
      rfl
  · have counted : count = 0 := if_neg far
    have none_ : sets = false := by simp [sets, counted]
    rw [if_neg (show ¬ s.diverges a = true by simpa [State.diverges] using far), none_, Bool.or_false, counted]
    rfl

theorem handleReleaseStop_of_clear {s : State} (clear : s.monitor.stop = false) :
    handleReleaseStop .loading [] s = acknowledge s [] := by
  simp [handleReleaseStop, clear]

theorem handleReleaseStop_of_divergent {s : State} (stop : s.monitor.stop = true) (divergent : 0 < s.monitor.divergence) :
    handleReleaseStop .loading [] s = refuse s .stillDivergent
      (u8 s.monitor.divergence ++ encHeelOpt s.monitor.measured ++ i16 s.predicted) := by
  simp [handleReleaseStop, stop, divergent]

theorem handleReleaseStop_of_released {s : State} (stop : s.monitor.stop = true) (steady : s.monitor.divergence = 0) :
    handleReleaseStop .loading [] s =
      { state := { s with monitor := { s.monitor with stop := false } }, reply := .ack [],
        head := [.heelStop false s.monitor.measured s.predicted s.monitor.tolerance 0], trigger := true } := by
  have notice : State.stopNotice { s with monitor := { s.monitor with stop := false } } false =
      .heelStop false s.monitor.measured s.predicted s.monitor.tolerance 0 := by
    rw [← steady]
    rfl
  have still : ¬ 0 < s.monitor.divergence := by omega
  rw [← notice]
  simp only [handleReleaseStop, stop, still]
  rfl

/-- Settles O34. -/
theorem heelIsComparedAndReleased : Obligations.HeelIsComparedAndReleased := by
  refine ⟨fun s code working tables ok plan low high => ?compares,
    fun s f o tables => ⟨fun clear => ?clear, fun stop divergent => ?divergent, fun stop steady => ?released⟩⟩
  case compares =>
    intro m active four measured count sets
    have compared : ({ s with monitor := m } : State).compares = true := (State.compares_iff _).mpr ⟨active, plan, four⟩
    have heel := Monitor.measured_of_four (sampledMonitor_history ok active four)
    rw [exec_sample working, State.takeSample_of_valid ok low high]
    rw [if_pos compared, State.compareHeel_of_measured (s := { s with monitor := m }) heel]
    exact State.event_quiet tables (State.monitored_quiet s _) _
  case clear => exact .of_handle rfl o tables (handleReleaseStop_of_clear (s := s.popMailbox .loading) clear)
  case divergent =>
    exact .of_handle rfl o tables (handleReleaseStop_of_divergent (s := s.popMailbox .loading) stop divergent)
  case released =>
    exact .of_taken rfl o (handleReleaseStop_of_released (s := s.popMailbox .loading) stop steady) rfl rfl

/-! The rounding (R69, R70) -/

theorem roundDiv_near (n : Int) {d : Nat} (pos : 0 < d) :
    2 * (n - d * roundDiv n d).natAbs ≤ d ∧
      (2 * (n - d * roundDiv n d).natAbs = d → n.natAbs < d * (roundDiv n d).natAbs) := by
  obtain ⟨q, hq⟩ : ∃ q, q = (2 * n.natAbs + d) / (2 * d) := ⟨_, rfl⟩
  have low : 2 * (d * q) ≤ 2 * n.natAbs + d := by
    have := Nat.mul_div_le (2 * n.natAbs + d) (2 * d)
    rwa [← hq, Nat.mul_assoc] at this
  have high : 2 * n.natAbs + d < 2 * (d * q) + 2 * d := by
    have := Nat.lt_mul_div_succ (2 * n.natAbs + d) (show 0 < 2 * d by omega)
    rwa [← hq, Nat.mul_succ, Nat.mul_assoc] at this
  have size : (roundDiv n d).natAbs = q := by
    unfold roundDiv
    dsimp only
    rw [← hq]
    split_ifs <;> simp
  have product : (d : Int) * roundDiv n d = if n < 0 then -((d * q : Nat) : Int) else ((d * q : Nat) : Int) := by
    unfold roundDiv
    dsimp only
    rw [← hq]
    split_ifs <;> push_cast <;> ring
  rw [size, product]
  generalize d * q = w at *
  split_ifs <;> omega

theorem clampInt_eq (lo hi v : Int) (h : lo ≤ hi) : clampInt lo hi v = max lo (min hi v) := by
  unfold clampInt
  split_ifs <;> omega

/-- Settles O35. -/
theorem roundingIsToTheNearest : Obligations.RoundingIsToTheNearest := by
  refine ⟨fun n d pos => roundDiv_near n pos, fun m => ⟨Monitor.measured_of_four, fun h => if_neg h⟩, fun s => ?_⟩
  intro net
  have predicted : s.predicted = max (-3000) (min 3000 (roundDiv (s.netMoment * s.monitor.kh) 16777216)) :=
    clampInt_eq _ _ _ (by decide)
  refine ⟨fun none_ => ?_, fun r held => ?_, fun off => ?_, by omega, by omega⟩
  · rw [predicted, State.netMoment, none_]
  · rw [predicted, State.netMoment, held]
  · rw [predicted, off]
    simp [roundDiv]

end Sys2Proof.Machine

/-! ANNOUNCE, SEND_BACK and the booking lookup of an ARRIVE (spec/03 R46 to R50, spec/07 R129). -/

namespace Sys2Proof.Machine

/-! ANNOUNCE (R46, R47, R50) -/

theorem State.putRecord_of_held {s : State} {unit old : UnitRecord} (h : s.findRecord unit.booking = some old) :
    s.putRecord unit = { s with register := s.register.map fun q => if q.booking = unit.booking then unit else q } := by
  obtain ⟨mem, booking⟩ := State.findRecord_some h
  exact if_pos (List.any_eq_true.mpr ⟨old, mem, by simpa using booking⟩)

section
variable {s : State} {b : Booking} {u : UnitFields} {flag : Bool}

/-- The payload of a well-formed ANNOUNCE in its parts. -/
theorem announcement_fields (booking : bookingOk b = true) (u : UnitFields) (flag : Bool) :
    (encBooking b ++ encUnitFields u flag).length = 20 ∧ field (encBooking b ++ encUnitFields u flag) 0 10 = encBooking b ∧
      (encBooking b ++ encUnitFields u flag).drop 10 = encUnitFields u flag := by
  have ten := encBooking_length booking
  refine ⟨?_, field_append _ _ ten, List.drop_left' ten⟩
  rw [List.length_append, ten]
  rfl

/-- A well-formed ANNOUNCE comes to the register. -/
theorem handleAnnounce_eq (booking : bookingOk b = true) (range : u.inRange = true) :
    let unit : UnitRecord := { booking := b, fields := u, unannounced := false, state := .announced }
    handleAnnounce .yard (encBooking b ++ encUnitFields u flag) s =
      if (s.findEntry b).isSome then refuse s .inUse
      else (s.findRecord b).elim
        (if Config.registerSize ≤ s.register.length then refuse s .full
          else acknowledge (s.putRecord unit) (encRecord unit ++ u8 1))
        fun old => if old.state = .announced ∨ old.state = .excluded then
            acknowledge (s.putRecord unit) (encRecord unit ++ u8 2)
          else refuse s .inUse := by
  intro unit
  obtain ⟨length, first, second⟩ := announcement_fields booking u flag
  obtain ⟨good, fields⟩ := rawUnit_enc_fields flag range
  simp only [handleAnnounce, length, first, second, decBooking_encBooking booking, good, fields]
  cases s.findRecord b <;> rfl

end

theorem handleAnnounce_of_malformed {p : List Byte} (length : p.length = 20) (malformed : decBooking (field p 0 10) = none)
    (s : State) : handleAnnounce .yard p s = refuseAt s 1 := by
  simp [handleAnnounce, length, malformed]

theorem handleAnnounce_of_bad_field {p : List Byte} (length : p.length = 20) {b : Booking}
    (booking : decBooking (field p 0 10) = some b) {k : Nat} (bad : (rawUnit (p.drop 10)).badField = some k) (s : State) :
    handleAnnounce .yard p s = refuseAt s k := by
  simp [handleAnnounce, length, booking, bad]

/-- Settles O36: lanes, account and mode do not depend on the register, so an ANNOUNCE is a quiet event. -/
theorem announcedUnitsAreRegistered : Obligations.AnnouncedUnitsAreRegistered := by
  refine ⟨fun s f b u flag booking range o tables => ?_, fun s f p o tables length => ⟨fun malformed => ?malformed,
    fun b k decoded bad => ?bad⟩⟩
  case malformed =>
    exact .of_handle rfl o tables (handleAnnounce_of_malformed length malformed (s.popMailbox .yard))
  case bad => exact .of_handle rfl o tables (handleAnnounce_of_bad_field length decoded bad (s.popMailbox .yard))
  have taken := handleAnnounce_eq (s := s.popMailbox .yard) (flag := flag) booking range
  dsimp only at taken
  have stored {unit : UnitRecord} {last : Nat} {t : State}
      (h : handleAnnounce .yard (encBooking b ++ encUnitFields u flag) (s.popMailbox .yard) =
        acknowledge ((s.popMailbox .yard).putRecord unit) (encRecord unit ++ u8 last))
      (put : (s.popMailbox .yard).putRecord unit = t) (quiet : QuietFrom (s.popMailbox .yard) t) :
      exec (.announce .yard) s = .next (t.concluded .yard (replyFrame f (.ack (encRecord unit ++ u8 last)))) := by
    rw [put] at h
    exact State.takeKind_quiet o _ h tables quiet
  refine ⟨fun aboard => ?aboard, fun free old held => ⟨fun way => ?inUse, fun idle => ?replaced⟩,
    fun free new => ⟨fun room => ?created, fun full => ?full⟩⟩
  case aboard => exact .of_handle rfl o tables (taken.trans (if_pos aboard))
  all_goals have ashore : ¬ ((s.popMailbox .yard).findEntry b).isSome = true := by
              rw [show (s.popMailbox .yard).findEntry b = none from free]; simp
  all_goals rw [if_neg ashore] at taken
  case inUse =>
    rw [show (s.popMailbox .yard).findRecord b = some old from held] at taken
    refine .of_handle rfl o tables (taken.trans (if_neg ?_))
    rcases way with e | e | e <;> simp [e]
  case replaced =>
    rw [show (s.popMailbox .yard).findRecord b = some old from held] at taken
    exact stored (taken.trans (if_pos idle)) (State.putRecord_of_held (s := s.popMailbox .yard) held)
      ⟨rfl, rfl, rfl, rfl, rfl, rfl, rfl⟩
  case created =>
    rw [show (s.popMailbox .yard).findRecord b = none from new] at taken
    exact stored (taken.trans (if_neg (Nat.not_le.mpr room))) (State.putRecord_of_new (s := s.popMailbox .yard) new)
      ⟨rfl, rfl, rfl, rfl, rfl, rfl, rfl⟩
  case full =>
    rw [show (s.popMailbox .yard).findRecord b = none from new] at taken
    exact .of_handle rfl o tables (taken.trans (if_pos full))

/-! SEND_BACK (R129) -/

theorem handleSendBack_of_stranger {st : Station} (stranger : isRampStation st = false) (p : List Byte) (s : State) :
    handleSendBack st p s = refuse s .authority := by
  simp [handleSendBack, stranger]

theorem handleSendBack_of_profile {st : Station} {s : State} (ramp : isRampStation st = true) (profile : s.mode = .profile)
    (p : List Byte) : handleSendBack st p s = refuse s .mode := by
  simp [handleSendBack, ramp, profile]

section
variable {st : Station} {s : State} {p : List Byte} {b : Booking} (ramp : isRampStation st = true)
  (mode : s.mode ≠ .profile) (length : p.length = 10)
include ramp mode length

theorem handleSendBack_of_malformed (malformed : decBooking p = none) : handleSendBack st p s = refuseAt s 1 := by
  simp [handleSendBack, ramp, mode, length, malformed]

theorem handleSendBack_of_unheld (booking : decBooking p = some b) (unheld : s.waitingAt b = none) :
    handleSendBack st p s =
      refuse s .unknown ((s.findRecord b).toList.flatMap fun r => u8 (unitStateCode r.state)) := by
  simp [handleSendBack, ramp, mode, length, booking, unheld]

theorem handleSendBack_of_waiting (booking : decBooking p = some b) {pos : Nat} {w : Waiting}
    (held : s.waitingAt b = some (pos, w)) :
    handleSendBack st p s =
      if rampOf st ≠ some w.ramp then refuse s .mismatch (u8 w.ramp)
      else acknowledge ((s.dropWaiting b).setUnitState b .announced)
        (encBooking b ++ u8 pos ++ u8 w.retries ++ encReasons w.reasons) := by
  simp [handleSendBack, ramp, mode, length, booking, held]

end

theorem State.waitingAt_none {s : State} {b : Booking} (h : ∀ w ∈ s.waiting, w.booking ≠ b) : s.waitingAt b = none := by
  simp only [State.waitingAt, Option.map_eq_none_iff, List.find?_eq_none, decide_eq_true_eq]
  rintro ⟨w, i⟩ hw
  exact h w (List.fst_mem_of_mem_zipIdx hw)

/-- Settles O38. -/
theorem sentBackUnitsReturn : Obligations.SentBackUnitsReturn := by
  intro st s f p o tables
  refine ⟨fun stranger => ?stranger, fun ramp profile => ?profile, fun ramp plan length => ⟨fun malformed => ?malformed,
    fun b booking => ⟨fun unheld => ?unheld, fun pos w held => ⟨fun other => ?mismatch, fun own => ?returns⟩⟩⟩⟩
  case stranger =>
    exact .of_handle rfl o tables (handleSendBack_of_stranger stranger p _)
  case profile =>
    exact .of_handle rfl o tables (handleSendBack_of_profile (s := s.popMailbox st) ramp profile p)
  all_goals have mode : (s.popMailbox st).mode ≠ .profile := State.ne_profile_of_planMode plan
  case malformed => exact .of_handle rfl o tables (handleSendBack_of_malformed ramp mode length malformed)
  case unheld =>
    exact .of_handle rfl o tables (handleSendBack_of_unheld ramp mode length booking
      (State.waitingAt_none (s := s.popMailbox st) unheld))
  case mismatch =>
    exact .of_handle rfl o tables ((handleSendBack_of_waiting ramp mode length booking held).trans (if_pos other))
  case returns =>
    exact State.takeKind_quiet o _ ((handleSendBack_of_waiting ramp mode length booking held).trans
      (if_neg (by simpa using own))) tables ⟨rfl, rfl, rfl, rfl, rfl, rfl, rfl⟩

/-! The booking lookup (R49, R50) -/

section
variable {s : State} {b : Booking} {description : Option RawUnit}

theorem lookupUnit_of_held {r : UnitRecord} (held : s.findRecord b = some r) : lookupUnit s b description =
    if r.state = .announced then .use s r false
    else if r.state = .excluded then .use (s.setUnitState b .announced) { r with state := .announced } false
    else .stop (.refuse .inUse []) := by
  unfold lookupUnit
  rw [held]
  cases e : r.state <;> simp [e]

theorem lookupUnit_of_new (new : s.findRecord b = none) : lookupUnit s b description = lookupNew s b description := by
  simp [lookupUnit, new]

theorem lookupNew_of_aboard (aboard : (s.findEntry b).isSome = true ∨ ∃ p ∈ s.lanes, p.2.check.map (·.booking) = some b) :
    lookupNew s b description = .stop (.refuse .inUse []) := by
  refine if_pos (aboard.imp_right fun ⟨p, hp, check⟩ => List.any_eq_true.mpr ⟨p, hp, by simpa using check⟩)

theorem lookupNew_of_ashore (ashore : s.findEntry b = none) (unchecked : ∀ p ∈ s.lanes, p.2.check.map (·.booking) ≠ some b) :
    lookupNew s b description = description.elim (.stop (.refuse .unknown [])) fun raw =>
      raw.badField.elim
        (if Config.registerSize ≤ s.register.length then .stop (.refuse .full [])
          else .use (s.putRecord { booking := b, fields := raw.fields, unannounced := true, state := .announced })
            { booking := b, fields := raw.fields, unannounced := true, state := .announced } true)
        fun k => .stop (.refuseField k 0 []) := by
  have absent : ¬ ((s.findEntry b).isSome = true ∨ (s.lanes.any fun l => decide (l.2.check.map (·.booking) = some b)) = true) := by
    rw [ashore, List.any_eq_true]
    rintro (h | ⟨p, hp, check⟩)
    · cases h
    · exact unchecked p hp (by simpa using check)
  unfold lookupNew
  rw [if_neg absent]
  cases description with
  | none => rfl
  | some raw =>
    dsimp only [Option.elim]
    cases raw.badField <;> rfl

end

/-- Settles O41. -/
theorem bookingsAreLookedUp : Obligations.BookingsAreLookedUp := by
  intro s b description
  refine ⟨fun r held => ?_, fun new => ⟨fun aboard => ?_, fun ashore unchecked => ?_⟩⟩
  · rw [lookupUnit_of_held held]
    refine ⟨fun e => if_pos e, fun e => ?_, fun e => ?_⟩
    · simp [e, State.setUnitState]
    · rcases e with e | e | e <;> simp [e]
  · rw [lookupUnit_of_new new, lookupNew_of_aboard aboard]
  · rw [lookupUnit_of_new new, lookupNew_of_ashore ashore unchecked]
    refine ⟨fun none_ => by rw [none_]; rfl, fun raw k given bad => by rw [given]; simp [bad], fun u flag range given => ?_⟩
    obtain ⟨good, fields⟩ := rawUnit_enc_fields flag range
    have size : Config.registerSize = 256 := rfl
    simp only [given, Option.elim, good, fields, size]
    refine ⟨fun full => if_pos full, fun room => ?_⟩
    rw [if_neg (Nat.not_le.mpr room), State.putRecord_of_new new]

end Sys2Proof.Machine

/-! ARRIVE and UNLASH (spec/05 R83 to R99). A taken frame leaves its mailbox before the request is examined; the
lookup and the examination read neither links nor image, so they come to the same with and without it. -/

namespace Sys2Proof.Machine

/-! The lookup reads the register and the lanes alone -/

/-- The lookup's end, with the oldest frame of a link gone. -/
def Lookup.popped (st : Station) : Lookup → Lookup
  | .use t unit created => .use (t.popMailbox st) unit created
  | .stop r => .stop r

section
variable {s : State} {b : Booking} {d : Option RawUnit}

theorem State.putRecord_popMailbox (s : State) (st : Station) (u : UnitRecord) :
    (s.popMailbox st).putRecord u = (s.putRecord u).popMailbox st := by
  unfold State.putRecord
  rw [show (s.popMailbox st).register = s.register from rfl]
  split <;> rfl

theorem lookupNew_popMailbox (s : State) (st : Station) (b : Booking) (d : Option RawUnit) :
    lookupNew (s.popMailbox st) b d = (lookupNew s b d).popped st := by
  unfold lookupNew
  rw [show (s.popMailbox st).findEntry b = s.findEntry b from rfl, show (s.popMailbox st).lanes = s.lanes from rfl]
  split
  · rfl
  · cases d with
    | none => rfl
    | some raw =>
      cases h : raw.badField with
      | some k => simp [h, Lookup.popped]
      | none =>
        simp only [h, State.putRecord_popMailbox, show (s.popMailbox st).register = s.register from rfl]
        split <;> rfl

theorem lookupUnit_popMailbox (s : State) (st : Station) (b : Booking) (d : Option RawUnit) :
    lookupUnit (s.popMailbox st) b d = (lookupUnit s b d).popped st := by
  cases h : s.findRecord b with
  | none => rw [lookupUnit_of_new h, lookupUnit_of_new (s := s.popMailbox st) h, lookupNew_popMailbox]
  | some r =>
    rw [lookupUnit_of_held h, lookupUnit_of_held (s := s.popMailbox st) h]
    split_ifs <;> rfl

theorem lookupNew_register {t : State} {u : UnitRecord} {created : Bool} (h : lookupNew s b d = .use t u created) :
    t = { s with register := t.register } ∧ u.booking = b := by
  unfold lookupNew at h
  split at h
  · cases h
  · split at h
    · cases h
    · split at h
      · cases h
      · split at h
        · cases h
        · cases h
          exact ⟨State.putRecord_eq s _, rfl⟩

/-- A lookup that delivers a unit changes the register alone, and delivers the record of the booking. -/
theorem lookupUnit_use_register {t : State} {u : UnitRecord} {created : Bool} (h : lookupUnit s b d = .use t u created) :
    t = { s with register := t.register } ∧ u.booking = b := by
  cases held : s.findRecord b with
  | none =>
    rw [lookupUnit_of_new held] at h
    exact lookupNew_register h
  | some r =>
    obtain ⟨-, booking⟩ := State.findRecord_some held
    rw [lookupUnit_of_held held] at h
    split_ifs at h <;> cases h
    · exact ⟨rfl, booking⟩
    · exact ⟨rfl, booking⟩

end

/-! ARRIVE -/

section
variable {st : Station} {s : State} {p : List Byte} {ramp : Nat} {row : Ramp} (station : rampOf st = some ramp)
  (run : s.mode = .run) (fitted : s.fittedRamp ramp = some row)
include station run fitted

theorem handleArrive_of_suspended (suspended : row.suspended = true) : handleArrive st p s = refuse s .suspended := by
  simp [handleArrive, station, run, fitted, suspended]

section
variable (free : row.suspended = false)
include free

theorem handleArrive_of_cutoff (reached : s.clock.reached = true) : handleArrive st p s = refuse s .cutoff := by
  simp [handleArrive, station, run, fitted, free, reached]

variable (open_ : s.clock.reached = false) (length : p.length = 10 ∨ p.length = 20)
include open_ length

theorem handleArrive_of_malformed (malformed : decBooking (field p 0 10) = none) : handleArrive st p s = refuseAt s 1 := by
  have form : ¬ (p.length ≠ 10 ∧ p.length ≠ 20) := by omega
  simp [handleArrive, station, run, fitted, free, open_, form, malformed]

variable {b : Booking} (booking : decBooking (field p 0 10) = some b)
include booking

theorem handleArrive_of_stop {r : Reply}
    (stops : lookupUnit s b (if p.length = 20 then some (rawUnit (p.drop 10)) else none) = .stop r) :
    handleArrive st p s = { state := s, reply := r } := by
  have form : ¬ (p.length ≠ 10 ∧ p.length ≠ 20) := by omega
  simp [handleArrive, station, run, fitted, free, open_, form, booking, stops]

theorem handleArrive_of_use {t : State} {unit : UnitRecord} {created : Bool}
    (uses : lookupUnit s b (if p.length = 20 then some (rawUnit (p.drop 10)) else none) = .use t unit created) :
    handleArrive st p s =
      arriveWith t ramp row unit (if created then [.unannouncedUnit b ramp unit.fields] else []) := by
  have form : ¬ (p.length ≠ 10 ∧ p.length ≠ 20) := by omega
  simp [handleArrive, station, run, fitted, free, open_, form, booking, uses]

end
end

theorem arriveWith_of_chosen {s : State} (clear : s.monitor.stop = false) {row : Ramp} {unit : UnitRecord} {n : Nat}
    {l : Lane} (chosen : s.evaluate row unit.body = .chosen n) (held : s.lanes.get n = some l) (ramp : Nat)
    (head : List Notice) : arriveWith s ramp row unit head =
      { state := s.reserveLoad ramp unit.booking unit.body (s.slotOf n l unit.body),
        reply := .assign n (s.laneEnd l) (l.profile.centre (s.laneEnd l) unit.body.length) s.seqNext, head := head } := by
  simp [arriveWith, clear, chosen, held, State.slotOf]

theorem arriveWith_of_held {s : State} {row : Ramp} {unit : UnitRecord} {rs : Reasons}
    (barred : (s.monitor.stop = true ∧ rs = [(.heelStop, row.reach.length)]) ∨
      (s.monitor.stop = false ∧ s.evaluate row unit.body = .held rs)) (ramp : Nat) (head : List Notice) :
    arriveWith s ramp row unit head = waitOrRefuse s ramp unit.booking rs head := by
  rcases barred with ⟨stop, rfl⟩ | ⟨clear, held⟩
  · simp [arriveWith, stop]
  · simp [arriveWith, clear, held]

/-- Settles O42: the examination chooses on the state the lookup leaves, and the unit is reserved there. -/
theorem arrivalsAreAssigned : Obligations.ArrivalsAreAssigned := by
  intro st s base f p ramp n row b unit created l o station run fitted free open_ clear length booking uses chosen held
    u offset centre zone d reserved
  obtain ⟨plan, -⟩ := lookupUnit_use_register uses
  obtain ⟨records, rfl⟩ : ∃ records, base = { s with register := records } := ⟨_, plan⟩
  have popped := (lookupUnit_popMailbox s st b _).trans (congrArg (Lookup.popped st) uses)
  have taken := handleArrive_of_use (s := s.popMailbox st) station run fitted free open_ length booking popped
  have arrives := taken.trans (arriveWith_of_chosen (s := ({ s with register := records } : State).popMailbox st) clear
    chosen held ramp _)
  exact .of_taken rfl o arrives rfl rfl

/-- Settles O43. -/
theorem arrivalsWait : Obligations.ArrivalsWait := by
  intro st s f p ramp row o tables station run fitted
  refine ⟨fun suspended => ?suspended, fun free reached => ?cutoff, fun free open_ length => ⟨fun malformed => ?malformed,
    fun b booking => ?booked⟩⟩
  case suspended => exact .of_handle rfl o tables (handleArrive_of_suspended (s := s.popMailbox st) station run fitted suspended)
  case cutoff => exact .of_handle rfl o tables (handleArrive_of_cutoff (s := s.popMailbox st) station run fitted free reached)
  case malformed =>
    exact .of_handle rfl o tables
      (handleArrive_of_malformed (s := s.popMailbox st) station run fitted free open_ length malformed)
  case booked =>
    intro found
    have popped := lookupUnit_popMailbox s st b (if p.length = 20 then some (rawUnit (p.drop 10)) else none)
    refine ⟨fun r stops => ?stop, fun base unit created rs uses barred => ?_⟩
    case stop =>
      exact .of_handle rfl o tables (handleArrive_of_stop (s := s.popMailbox st) station run fitted free open_ length booking
        (popped.trans (congrArg (Lookup.popped st) stops)))
    intro head
    obtain ⟨plan, -⟩ := lookupUnit_use_register uses
    obtain ⟨records, rfl⟩ : ∃ records, base = { s with register := records } := ⟨_, plan⟩
    have taken := handleArrive_of_use (s := s.popMailbox st) station run fitted free open_ length booking
      (popped.trans (congrArg (Lookup.popped st) uses))
    have waits := taken.trans (arriveWith_of_held (s := ({ s with register := records } : State).popMailbox st) barred ramp _)
    refine ⟨fun room => ?room, fun full => ?full⟩
    case room =>
      exact State.takeKind_quiet o _ (waits.trans (if_pos room)) tables ⟨rfl, rfl, rfl, rfl, rfl, rfl, rfl⟩
    case full =>
      exact State.takeKind_quiet o _ (waits.trans (if_neg (Nat.not_lt.mpr full))) tables
        ⟨rfl, rfl, rfl, rfl, rfl, rfl, rfl⟩

/-! UNLASH (R96 to R99) -/

section
variable {st : Station} {s : State} {p : List Byte} {ramp : Nat} {row : Ramp} (station : rampOf st = some ramp)
  (run : s.mode = .run) (fitted : s.fittedRamp ramp = some row)
include station run fitted

theorem handleUnlash_of_suspended (suspended : row.suspended = true) : handleUnlash st p s = refuse s .suspended := by
  simp [handleUnlash, station, run, fitted, suspended]

section
variable (free : row.suspended = false)
include free

theorem handleUnlash_of_stop (stop : s.monitor.stop = true) : handleUnlash st p s = refuse s .heelStop := by
  simp [handleUnlash, station, run, fitted, free, stop]

variable (clear : s.monitor.stop = false) (length : p.length = 10)
include clear length

theorem handleUnlash_of_malformed (malformed : decBooking p = none) : handleUnlash st p s = refuseAt s 1 := by
  simp [handleUnlash, station, run, fitted, free, clear, length, malformed]

variable {b : Booking} (booking : decBooking p = some b)
include booking

theorem handleUnlash_of_absent (absent : s.findEntry b = none) :
    handleUnlash st p s = refuse s (if (s.findLoadCheck b).isSome then .inUse else .unknown) := by
  by_cases check : (s.findLoadCheck b).isSome = true <;>
    simp [handleUnlash, station, run, fitted, free, clear, length, booking, absent, check]

theorem handleUnlash_of_found {g : Found} (found : s.findEntry b = some g) :
    handleUnlash st p s = if g.entry.state = .stowed then unlashFound s ramp row g else refuse s .inUse := by
  simp [handleUnlash, station, run, fitted, free, clear, length, booking, found]

end
end

/-- The lane of an entry bars its discharge: it shows CHECK, MOVING or AWAY, its section waits to move, or the
lane is in service (R97). -/
def State.stuck (s : State) (l : Lane) : Bool :=
  decide (s.displayed l = .check) || decide (s.displayed l = .moving) || decide (s.displayed l = .away) ||
    s.laneSectionPending l || l.inService

section
variable {s : State} {ramp : Nat} {row : Ramp} {g : Found}

theorem unlashFound_of_unreached (unreached : g.laneNo ∉ row.reach) : unlashFound s ramp row g = refuse s .reach := by
  simp [unlashFound, unreached]

variable (reached : g.laneNo ∈ row.reach)
include reached

theorem unlashFound_of_stuck (stuck : s.stuck g.lane = true) : unlashFound s ramp row g = refuse s .busy := by
  have barred : (s.displayed g.lane = .check ∨ s.displayed g.lane = .moving ∨ s.displayed g.lane = .away ∨
      s.laneSectionPending g.lane = true) ∨ g.lane.inService = true := by
    simpa [State.stuck, or_assoc] using stuck
  unfold unlashFound
  dsimp only
  rw [if_neg (by simpa using reached)]
  rcases barred with barred | serving
  · rw [if_pos barred]
  · rw [if_pos serving, ite_self]

theorem unlashFound_of_loose (loose : s.stuck g.lane = false) :
    unlashFound s ramp row g =
      if g.position < g.lane.entries.length then refuse s .buried (u8 (g.lane.entries.length - g.position))
      else if Config.reservations ≤ s.movements.length ∨ Config.rampReservations ≤ row.count then refuse s .full
      else if !s.envelopeOk s.account (-(g.entry.unit.mass * g.lane.profile.arm)) then
        refuse s .heel (heelFigures s (-(g.entry.unit.mass * g.lane.profile.arm)))
      else releaseUnit s ramp g := by
  simp only [State.stuck, Bool.or_eq_false_iff, decide_eq_false_iff_not] at loose
  obtain ⟨⟨⟨⟨check, moving⟩, away⟩, pending⟩, idle⟩ := loose
  simp [unlashFound, reached, check, moving, away, pending, idle]

end

/-- What a HEEL refusal of UNLASH carries: the envelope and limit on the delta's side (R98). -/
theorem heelFigures_of_pos {s : State} {d : Int} (pos : 0 < d) :
    heelFigures s d = i32 (s.account.tc + s.account.pPlus + d) ++ i32 s.upperLimit := by
  simp [heelFigures, Account.upperWith, Account.upper, pos]

theorem heelFigures_of_neg {s : State} {d : Int} (neg : d < 0) :
    heelFigures s d = i32 (s.account.tc + s.account.pMinus + d) ++ i32 s.lowerLimit := by
  simp [heelFigures, Account.lowerWith, Account.lower, neg, neg.le]

/-- Settles O44: the checks of R97 and R98 in their order, and behind them the discharge admission. -/
theorem unlashReleasesTheOpenEndUnit : Obligations.UnlashReleasesTheOpenEndUnit := by
  refine ⟨fun st s f ramp row p o tables station run fitted free clear length malformed => ?malformed,
    fun st s f ramp row b ok o tables station run fitted => ⟨fun suspended => ?suspended, fun free stop => ?stop,
      fun free clear => ⟨fun absent => ?absent, fun g found => ?found⟩⟩⟩
  case malformed =>
    exact .of_handle rfl o tables
      (handleUnlash_of_malformed (s := s.popMailbox st) station run fitted free clear length malformed)
  case suspended => exact .of_handle rfl o tables (handleUnlash_of_suspended (s := s.popMailbox st) station run fitted suspended)
  case stop => exact .of_handle rfl o tables (handleUnlash_of_stop (s := s.popMailbox st) station run fitted free stop)
  case absent =>
    exact .of_handle rfl o tables (handleUnlash_of_absent (s := s.popMailbox st) station run fitted free clear
      (encBooking_length ok) (decBooking_encBooking ok) absent)
  have taken := handleUnlash_of_found (s := s.popMailbox st) station run fitted free clear
    (encBooking_length ok) (decBooking_encBooking ok) found
  obtain ⟨-, booking, -, -⟩ := State.findEntry_some found
  intro d shown stuck behind full
  refine ⟨fun busy => ?inUse, fun stowed unreached => ?reach, fun stowed reached => ⟨fun stays => ?stuck,
    fun loose deep => ?buried, fun loose top all => ?full, fun loose top room => ⟨fun pos beyond => ?upper,
      fun neg below => ?lower, fun upper lower => ?released⟩⟩⟩
  case inUse => exact .of_handle rfl o tables (taken.trans (if_neg busy))
  all_goals rw [if_pos stowed] at taken
  case reach => exact .of_handle rfl o tables (taken.trans (unlashFound_of_unreached unreached))
  case stuck => exact .of_handle rfl o tables (taken.trans (unlashFound_of_stuck (s := s.popMailbox st) reached stays))
  all_goals rw [unlashFound_of_loose (s := s.popMailbox st) reached loose] at taken
  case buried => exact .of_handle rfl o tables (taken.trans (if_pos (Nat.lt_of_sub_pos deep)))
  all_goals rw [if_neg (show ¬ g.position < g.lane.entries.length by omega)] at taken
  case full =>
    have limit : 16 ≤ s.movements.length ∨ 6 ≤ row.count := by simpa [full] using all
    exact .of_handle rfl o tables (taken.trans (if_pos limit))
  all_goals rw [if_neg (by simpa [full, Config.reservations, Config.rampReservations] using room)] at taken
  case upper =>
    have fails : ¬ (s.popMailbox st).envelopeOk s.account d = true := fun fits => by
      have := ((State.envelopeOk_iff (s := s) (d := d)).mp fits).1 pos
      omega
    rw [if_pos (by simpa using fails), heelFigures_of_pos pos] at taken
    exact .of_handle rfl o tables taken
  case lower =>
    have fails : ¬ (s.popMailbox st).envelopeOk s.account d = true := fun fits => by
      have := ((State.envelopeOk_iff (s := s) (d := d)).mp fits).2 neg
      omega
    rw [if_pos (by simpa using fails), heelFigures_of_neg neg] at taken
    exact .of_handle rfl o tables taken
  case released =>
    have fits : (s.popMailbox st).envelopeOk s.account d = true := (State.envelopeOk_iff (s := s) (d := d)).mpr ⟨upper, lower⟩
    rw [if_neg (by simpa using fits)] at taken
    rw [← booking]
    exact .of_taken rfl o taken rfl rfl

end Sys2Proof.Machine

/-! LASHED, BACKOUT, OFFLOADED, KEEP, VERIFY and the expiries (spec/06 R104 to R118). In a sound state the lane of
a reservation ends in the entry the reservation concerns, so the masses and the list position that a confirmation
reads off the lane are those of the reservation. -/

namespace Sys2Proof.Machine

/-! The resolution of a movement -/

theorem State.resolved_relinked (s : State) (links : PerStation Link) (x : Store) (n : Nat) :
    (s.relinked links x).resolved n = ((s.resolved n).1.relinked links x, (s.resolved n).2) := by
  unfold State.resolved
  rw [show (s.relinked links x).lanes = s.lanes from rfl, show (s.relinked links x).sections = s.sections from rfl]
  cases (s.lanes.get n).bind fun l => l.profile.relation.section? with
  | none => rfl
  | some k =>
    dsimp only
    cases s.sections.get k with
    | none => rfl
    | some c =>
      dsimp only
      rw [show (s.relinked links x).pendingLanes k = s.pendingLanes k from rfl]
      split_ifs <;> rfl

/-- A request that resolves a movement of `b`, links and image apart. -/
theorem AnswersWith.of_resolution {c : Instr} {s b : State} {st : Station} {code : Nat} {p : List Byte} {f : Frame}
    {handle : Station → List Byte → State → Taken} {n : Nat} {r : Reply} {head : List Notice}
    (hc : exec c s = s.takeKind st code handle) (o : s.Offers st code p f)
    (h : handle st p (s.popMailbox st) = resolution (b.relinked (s.popMailbox st).links s.store) n r head)
    (hs : (b.resolved n).1.stations = s.stations) :
    AnswersWith c s st f r head (b.resolved n).2 (b.resolved n).1 true := by
  refine .of_taken hc o (x := (b.resolved n).1.relinked (s.popMailbox st).links s.store) (h.trans ?_) rfl hs
  rw [resolution, State.resolved_relinked]

theorem State.resolved_stations (s : State) (n : Nat) : (s.resolved n).1.stations = s.stations := by
  unfold State.resolved
  split
  · rfl
  · split
    · rfl
    · split_ifs <;> rfl

/-! Where a booking is found -/

/-- Lanes that hold a booking twice between them are one lane. -/
theorem lane_of_booking {lanes : Table Lane} (once : (heldBookings lanes).Nodup) {p q : Nat × Lane} (hp : p ∈ lanes)
    (hq : q ∈ lanes) {b : Booking} (inP : b ∈ p.2.units.map (·.1)) (inQ : b ∈ q.2.units.map (·.1)) : p = q := by
  by_contra ne
  have apart := (List.nodup_flatMap.mp once).2
  have symmetric : Std.Symm (Function.onFun List.Disjoint fun p : Nat × Lane => p.2.units.map (·.1)) :=
    ⟨fun _ _ h => h.symm⟩
  exact apart.forall hp hq ne inP inQ

theorem booking_mem_units {l : Lane} {e : Entry} (he : e ∈ l.entries) : e.booking ∈ l.units.map (·.1) := by
  rw [Lane.units, List.map_append]
  exact List.mem_append_left _ (List.mem_map.mpr ⟨_, List.mem_map_of_mem he, rfl⟩)

/-- A booking that the lanes hold once is found where it stands. -/
theorem findEntry_of_entry {s : State} (once : (heldBookings s.lanes).Nodup) {n : Nat} {l : Lane} (mem : (n, l) ∈ s.lanes)
    {i : Nat} {e : Entry} (at_ : l.entries[i]? = some e) :
    s.findEntry e.booking = some { laneNo := n, lane := l, position := i + 1, entry := e } := by
  have here := List.mem_of_getElem? at_
  cases found : s.findEntry e.booking with
  | none =>
    have nowhere := List.findSome?_eq_none_iff.mp found (n, l) mem
    exact absurd rfl (findInLane_none nowhere e here)
  | some f =>
    obtain ⟨memF, booking, first, atF⟩ := State.findEntry_some found
    have same := lane_of_booking once memF mem (booking_mem_units (List.mem_of_getElem? atF))
      (booking ▸ booking_mem_units here)
    obtain ⟨number, lane⟩ := Prod.mk.inj same
    rw [lane] at atF
    have single : (l.entries.map (·.booking)).Nodup := by
      have := (List.nodup_flatMap.mp once).1 (n, l) mem
      simp only [Lane.units, List.map_append, List.map_map] at this
      exact (List.nodup_append.mp this).1
    have index : f.position - 1 = i := by
      refine (List.getElem?_inj (by simpa using (List.getElem?_eq_some_iff.mp atF).1) single).mp ?_
      rw [List.getElem?_map, List.getElem?_map, atF, at_, Option.map_some, Option.map_some, booking]
    have entry : f.entry = e := Option.some.inj (atF.symm.trans (index ▸ at_))
    obtain ⟨number', lane', position, entry'⟩ := f
    simp only at number lane index entry first
    rw [number, lane, entry, ← index, Nat.sub_add_cancel first]

/-! What the open-end entry of a reservation's lane says -/

section
variable {s : State} {r : Reservation} {l : Lane} {base : List Entry} {e : Entry}

theorem State.lastMass_of_concat {n : Nat} (lane : s.lanes.get n = some l) (entries : l.entries = base ++ [e]) :
    s.lastMass n = e.unit.mass := by
  simp [State.lastMass, State.lastEntry, lane, entries]

theorem setLast_length (es : List Entry) (st : EntryState) : (setLast es st).length = es.length := by
  unfold setLast
  rcases List.eq_nil_or_concat es with rfl | ⟨base, e, rfl⟩
  · rfl
  · simp

theorem State.entryCount_of_lanes {t : State} {n : Nat} {f : Lane → Lane} (lanes : t.lanes = s.lanes.modify n f)
    (lane : s.lanes.get n = some l) : t.entryCount n = (f l).entries.length := by
  rw [State.entryCount, lanes, Table.get_modify, if_pos rfl, lane]
  rfl

end

/-! The plan after a confirmation -/

section
variable (s : State) (r : Reservation)

/-- The reservation gone, its ramp's count lowered (R102). -/
def State.releasedOf : State :=
  { s with
    movements := s.movements.eraseP fun q => decide (q.lane = r.lane)
    ramps := s.ramps.modify r.ramp fun q => { q with count := q.count - 1 } }

def State.stowedBy : State :=
  { s.releasedOf r with
    lanes := s.lanes.modify r.lane fun q => { q with entries := setLast q.entries .stowed, mass := q.mass + r.mass }
    account := s.account.confirmDelta r.delta
    zones := onZone s.zones r.zone (Zone.confirm r.mass)
    register := s.register.filter fun q => decide (q.booking ≠ r.booking) }

def State.backedOutBy : State :=
  { s.releasedOf r with
    lanes := s.lanes.modify r.lane fun q => { q with entries := q.entries.dropLast }
    poolInUse := s.poolInUse - 1
    account := s.account.dropDelta r.delta
    zones := onZone s.zones r.zone (Zone.dropPending r.mass)
    register := s.register.map fun q => if q.booking = r.booking then { q with state := .announced } else q }

def State.offloadedBy : State :=
  { s.releasedOf r with
    lanes := s.lanes.modify r.lane fun q => { q with entries := q.entries.dropLast, mass := q.mass - r.mass }
    poolInUse := s.poolInUse - 1
    account := s.account.confirmDelta r.delta
    zones := onZone s.zones r.zone (Zone.unload r.mass) }

def State.keptBy : State :=
  { s.releasedOf r with
    lanes := s.lanes.modify r.lane fun q => { q with entries := setLast q.entries .stowed }
    account := s.account.dropDelta r.delta }

end

section
variable {s : State} {r : Reservation} {l : Lane} {base : List Entry} {e : Entry}

theorem stowOnTime_eq (h : Loading s r l base e) : stowOnTime s r = resolution (s.stowedBy r) r.lane
    (.ack (u8 r.lane ++ encBooking r.booking ++ u8 l.entries.length ++ u16 r.offset ++ u8 1))
    [.unitStowed r.booking r.lane l.entries.length r.offset r.ramp r.mass r.delta false (s.account.tc + r.delta)] := by
  have stowed : ((s.endReservation r).opStow r.lane r.delta r.zone).removeRecord r.booking = s.stowedBy r := by
    rw [State.stowedBy, h.mass, ← State.lastMass_of_concat h.lane h.entries]
    rfl
  have count : (s.stowedBy r).entryCount r.lane = l.entries.length :=
    (State.entryCount_of_lanes
      (f := fun q => { q with entries := setLast q.entries .stowed, mass := q.mass + r.mass }) rfl h.lane).trans
      (setLast_length _ _)
  simp only [stowOnTime, stowed, count]
  rfl

theorem backOutLoad_eq (h : Loading s r l base e) : backOutLoad s r =
    resolution (s.backedOutBy r) r.lane (.ack (u8 r.lane ++ encBooking r.booking)) [] := by
  have removed : ((s.endReservation r).opBackOut r.lane r.delta r.zone).setUnitState r.booking .announced =
      s.backedOutBy r := by
    rw [State.backedOutBy, h.mass, ← State.lastMass_of_concat h.lane h.entries]
    rfl
  simp only [backOutLoad, removed]

theorem offloadOnTime_eq (h : Leaving s r l base e) : offloadOnTime s r = resolution (s.offloadedBy r) r.lane
    (.ack (u8 r.lane ++ encBooking r.booking ++ u8 1))
    [.unitDischarged r.booking r.lane r.ramp r.mass r.delta false (s.account.tc + r.delta)] := by
  have gone : (s.endReservation r).opOffload r.lane r.delta r.zone = s.offloadedBy r := by
    rw [State.offloadedBy, h.mass, ← State.lastMass_of_concat h.lane h.entries]
    rfl
  simp only [offloadOnTime, gone]
  rfl

theorem keepAboard_eq (s : State) (r : Reservation) : keepAboard s r =
    resolution (s.keptBy r) r.lane (.ack (u8 r.lane ++ encBooking r.booking)) [] := rfl

end

/-! The forms of a confirmation (R107) -/

section
variable {st : Station} {p : List Byte} {s : State} {kind : MoveKind} {long : Nat} {onTime : Reservation → Taken}
  {specific : Taken} {ramp : Nat} (station : rampOf st = some ramp) (mode : s.mode ≠ .profile)
include station mode

theorem confirmation_of_oldest {r : Reservation} (h : s.oldest ramp kind = some r) :
    confirmation st [] s kind long onTime specific = onTime r := by
  simp [confirmation, station, mode, h]

theorem confirmation_of_none (h : s.oldest ramp kind = none) :
    confirmation st [] s kind long onTime specific = refuse s .noMovement := by
  simp [confirmation, station, mode, h]

theorem confirmation_of_specific (length : p.length = long) (long0 : long ≠ 0) :
    confirmation st p s kind long onTime specific = specific := by
  simp [confirmation, station, mode, length, long0]

end

section
variable {p : List Byte} {s : State} {k : Nat → Lane → Booking → Taken} {n : Nat} (small : n < 256)
  (first : field p 0 1 = u8 n)
include small first

theorem laneAndBooking_of_out (out : laneNumberOk n = false) : laneAndBooking p s k = refuseAt s 2 := by
  simp [laneAndBooking, first, natOf_u8 small, out]

variable (number : laneNumberOk n = true)
include number

theorem laneAndBooking_of_malformed (malformed : decBooking (field p 1 10) = none) :
    laneAndBooking p s k = refuseAt s 1 := by
  simp [laneAndBooking, first, natOf_u8 small, number, malformed]

variable {b : Booking} (booking : decBooking (field p 1 10) = some b)
include booking

theorem laneAndBooking_of_undefined (undefined : s.lanes.get n = none) : laneAndBooking p s k = refuse s .unknown := by
  simp [laneAndBooking, first, natOf_u8 small, number, booking, undefined]

theorem laneAndBooking_of_lane {l : Lane} (lane : s.lanes.get n = some l) : laneAndBooking p s k = k n l b := by
  simp [laneAndBooking, first, natOf_u8 small, number, booking, lane]

end

/-- The payload of a confirmation that names a lane and a booking. -/
theorem laneAndBooking_enc {s : State} {k : Nat → Lane → Booking → Taken} {n : Nat} (number : laneNumberOk n = true)
    {b : Booking} (ok : bookingOk b = true) {l : Lane} (lane : s.lanes.get n = some l) :
    (u8 n ++ encBooking b).length = 11 ∧ laneAndBooking (u8 n ++ encBooking b) s k = k n l b := by
  have second : decBooking (field (u8 n ++ encBooking b) 1 10) = some b := by
    have : field (u8 n ++ encBooking b) 1 10 = field (encBooking b) 0 10 := field_skip (u8 n) (encBooking b) 0 10 rfl
    rw [this, field_whole _ (encBooking_length ok), decBooking_encBooking ok]
  refine ⟨?_, laneAndBooking_of_lane (laneNumberOk_small number) (field_append _ _ rfl) number second lane⟩
  rw [List.length_append, encBooking_length ok]
  rfl

/-! Table 6-3 -/

section
variable {s : State} {n : Nat} {l : Lane} {b : Booking} {on : Nat → Lane → Booking → Taken}
  (either : on = lashedOn s ∨ on = backoutOn s)
include either

theorem loadOn_of_other_reservation {r : Reservation} (held : s.reservationOn n = some r)
    (other : r.kind = .discharge ∨ r.booking ≠ b) :
    on n l b = refuse s .mismatch (u8 1 ++ u8 (moveKindCode r.kind) ++ encBooking r.booking) := by
  have unfit : ¬ (r.kind = .load ∧ r.booking = b) := by
    rintro ⟨load, booking⟩
    rcases other with other | other
    · rw [load] at other; cases other
    · exact other booking
  obtain rfl | rfl := either <;> simp [lashedOn, backoutOn, held, unfit, encMovement]

variable (idle : s.reservationOn n = none)
include idle

theorem loadOn_of_no_movement (check : l.check = none) : on n l b = refuse s .noMovement := by
  obtain rfl | rfl := either <;> simp [lashedOn, backoutOn, idle, check]

theorem loadOn_of_other_check {c : CheckRecord} (check : l.check = some c)
    (other : c.content = .discharge ∨ c.booking ≠ b) :
    on n l b = refuse s .mismatch (u8 2 ++ u8 (moveKindCode c.kind) ++ encBooking c.booking) := by
  obtain rfl | rfl := either <;> cases content : c.content <;>
    simp_all [lashedOn, backoutOn, encMovement]

end

theorem backoutOn_of_check {s : State} {n : Nat} {l : Lane} {c : CheckRecord} {u : UnitBody}
    (idle : s.reservationOn n = none) (check : l.check = some c) (content : c.content = .load u) :
    backoutOn s n l c.booking = refuse s .noMovement (encCheck c) := by
  simp [backoutOn, idle, check, content]

theorem optNat_eq (z : Option Nat) : optNat z = z.getD 0 := by
  cases z <;> rfl

theorem encCheck_of_load {c : CheckRecord} {u : UnitBody} (content : c.content = .load u) :
    encCheck c = u8 1 ++ encBooking c.booking ++ u8 c.ramp ++ i32 c.delta ++ u8 (c.zone.getD 0) ++ u16 c.offset ++
      encUnitBody u := by
  simp [encCheck, CheckRecord.kind, CheckRecord.unit?, content, moveKindCode, optNat_eq]

theorem encCheck_of_discharge {c : CheckRecord} (content : c.content = .discharge) :
    encCheck c = u8 2 ++ encBooking c.booking ++ u8 c.ramp ++ i32 c.delta ++ u8 (c.zone.getD 0) ++ u16 c.offset := by
  simp [encCheck, CheckRecord.kind, CheckRecord.unit?, content, moveKindCode, optNat_eq]

/-- LASHED and BACKOUT share their opening checks. -/
theorem requestOf_load {c : Instr} {code : Nat} {st : Station} (h : requestOf c = some (code, st))
    (hc : code = 0x31 ∨ code = 0x32) : ∃ (onTime : State → Reservation → Taken) (on : State → Nat → Lane → Booking → Taken),
      (∀ s, exec c s = s.takeKind st code fun st p s => confirmation st p s .load 11 (onTime s) (laneAndBooking p s (on s))) ∧
        ∀ s, (code = 0x31 ∧ on s = lashedOn s) ∨ code = 0x32 ∧ on s = backoutOn s := by
  cases c
  case lashed => obtain ⟨rfl, rfl⟩ := request_eq h; exact ⟨stowOnTime, lashedOn, fun _ => rfl, fun _ => .inl ⟨rfl, rfl⟩⟩
  case backout => obtain ⟨rfl, rfl⟩ := request_eq h; exact ⟨backOutLoad, backoutOn, fun _ => rfl, fun _ => .inr ⟨rfl, rfl⟩⟩
  all_goals
    simp only [requestOf, Option.some.injEq, Prod.mk.injEq, reduceCtorEq] at h <;> omega

theorem laneNumberOk_of_get {s : State} {n : Nat} {l : Lane} (tables : s.tablesOk = true)
    (lane : s.lanes.get n = some l) : laneNumberOk n = true := by
  obtain ⟨rising, small⟩ := (Table.wf_iff_pairwise _ _).mp (State.wf_of_tablesOk tables).1
  have mem := Table.mem_of_get lane
  exact laneNumberOk_iff.mpr ⟨(List.pairwise_cons.mp rising).1 n (List.mem_map_of_mem (f := (·.1)) mem), small _ mem⟩

/-- A LOAD reservation that a confirmation names, or that stands oldest for its ramp, is taken on time. -/
theorem handleLoad_taken {s : State} {st : Station} {p : List Byte} {ramp : Nat} {r : Reservation} {l : Lane}
    {onTime : Reservation → Taken} {on : Nat → Lane → Booking → Taken} (tables : s.tablesOk = true)
    (station : rampOf st = some ramp) (mode : s.mode ≠ .profile) (lane : s.lanes.get r.lane = some l)
    (takes : s.reservationOn r.lane = some r → r.kind = .load → on r.lane l r.booking = onTime r)
    (named : (p = [] ∧ s.oldest ramp .load = some r) ∨
      (p = u8 r.lane ++ encBooking r.booking ∧ bookingOk r.booking = true ∧ r.kind = .load ∧
        s.reservationOn r.lane = some r)) :
    confirmation st p s .load 11 onTime (laneAndBooking p s on) = onTime r := by
  rcases named with ⟨rfl, oldest⟩ | ⟨rfl, ok, load, held⟩
  · exact confirmation_of_oldest station mode oldest
  · obtain ⟨length, names⟩ := laneAndBooking_enc (s := s) (k := on) (laneNumberOk_of_get tables lane) ok lane
    rw [confirmation_of_specific station mode length (by decide), names, takes held load]

theorem Loading.unique {s : State} {r : Reservation} {l m : Lane} {base : List Entry} {e : Entry}
    (h : Loading s r l base e) (lane : s.lanes.get r.lane = some m) : Loading s r m base e := by
  obtain rfl := Option.some.inj (h.lane.symm.trans lane)
  exact h

/-- Settles O45: the refusals are the rows of Table 6-3, and a reservation taken leaves the plan that its
entry gives. -/
theorem loadsAreConfirmed : Obligations.LoadsAreConfirmed := by
  refine ⟨fun c code st s f p ramp request codes o tables station plan => ?_,
    fun st s f p ramp r l sound station plan lane named => ?_⟩
  · obtain ⟨onTime, on, runs, either⟩ := requestOf_load request codes
    have mode : (s.popMailbox st).mode ≠ .profile := State.ne_profile_of_planMode plan
    refine ⟨?_, fun n small length first => ⟨fun out => ?_, fun number malformed => ?_, fun b number booking =>
      ⟨fun undefined => ?_, fun l lane => ?_⟩⟩⟩
    · rintro rfl none_
      exact .of_handle (runs s) o tables (confirmation_of_none (s := s.popMailbox st) station mode none_)
    all_goals have specific {k : Nat → Lane → Booking → Taken} {onTime : Reservation → Taken} :=
                confirmation_of_specific (s := s.popMailbox st) (kind := .load) (onTime := onTime)
                  (specific := laneAndBooking p (s.popMailbox st) k) station mode length (by decide)
    · exact .of_handle (runs s) o tables (specific.trans (laneAndBooking_of_out small first out))
    · exact .of_handle (runs s) o tables (specific.trans (laneAndBooking_of_malformed small first number malformed))
    · exact .of_handle (runs s) o tables
        (specific.trans (laneAndBooking_of_undefined (s := s.popMailbox st) small first number booking undefined))
    · have names {k : Nat → Lane → Booking → Taken} : laneAndBooking p (s.popMailbox st) k = k n l b :=
        laneAndBooking_of_lane (s := s.popMailbox st) small first number booking lane
      have tables63 := (either (s.popMailbox st)).imp And.right And.right
      refine ⟨fun r held other => ?_, fun idle => ⟨fun check => ?_, fun k check => ⟨fun other => ?_,
        fun u content booked late => ?_⟩⟩⟩
      · exact .of_handle (runs s) o tables
          (specific.trans (names.trans (loadOn_of_other_reservation tables63 (s := s.popMailbox st) held other)))
      · exact .of_handle (runs s) o tables
          (specific.trans (names.trans (loadOn_of_no_movement tables63 (s := s.popMailbox st) idle check)))
      · exact .of_handle (runs s) o tables
          (specific.trans (names.trans (loadOn_of_other_check tables63 (s := s.popMailbox st) idle check other)))
      · have backout : on (s.popMailbox st) = backoutOn (s.popMailbox st) := by
          rcases either (s.popMailbox st) with ⟨lashed, -⟩ | ⟨-, on⟩
          · omega
          · exact on
        subst booked
        rw [← encCheck_of_load content]
        exact .of_handle (runs s) o tables (specific.trans (names.trans
          ((congrFun (congrFun (congrFun backout n) l) k.booking).trans
            (backoutOn_of_check (s := s.popMailbox st) idle check content))))
  · obtain ⟨tables, ok, planned⟩ := State.settled_of_sound sound
    have mode : (s.popMailbox st).mode ≠ .profile := State.ne_profile_of_planMode plan
    have load : r ∈ s.movements ∧ r.kind = .load := by
      rcases named with ⟨-, oldest⟩ | ⟨-, -, load, held⟩
      · exact ⟨(State.oldest_some oldest).1, (State.oldest_some oldest).2.2⟩
      · exact ⟨(State.reservationOn_some held).1, load⟩
    obtain ⟨k, base, e, loading⟩ := planned.berthed.loading tables load.1 load.2
    have loading := loading.unique lane
    have popped : Loading (s.popMailbox st) r l base e := { loading with }
    refine ⟨fun o => ?_, fun o => ?_⟩
    · refine .of_resolution (b := s.stowedBy r) rfl o ((handleLoad_taken (s := s.popMailbox st) tables station mode lane
        ?_ named).trans (stowOnTime_eq popped)) (State.resolved_stations _ _)
      intro held kind
      simp [lashedOn, held, kind]
    · refine .of_resolution (b := s.backedOutBy r) rfl o ((handleLoad_taken (s := s.popMailbox st) tables station mode lane
        ?_ named).trans (backOutLoad_eq popped)) (State.resolved_stations _ _)
      intro held kind
      simp [backoutOn, held, kind]

end Sys2Proof.Machine

/-! OFFLOADED and KEEP, the late confirmations, VERIFY and the expiries (spec/06 R104 to R118). -/

namespace Sys2Proof.Machine

/-! Table 6-4 -/

theorem State.findLoadCheck_some {s : State} {b : Booking} {k : Nat × CheckRecord} (tables : s.tablesOk = true)
    (h : s.findLoadCheck b = some k) : ∃ l, s.lanes.get k.1 = some l ∧ l.check = some k.2 ∧ k.2.kind = .load ∧
      k.2.booking = b := by
  obtain ⟨⟨n, l⟩, mem, found⟩ := List.exists_of_findSome?_eq_some h
  obtain ⟨⟨c, u⟩, held, same⟩ := Option.bind_eq_some_iff.mp found
  obtain ⟨d, check, unit⟩ := Option.bind_eq_some_iff.mp held
  obtain ⟨v, content, pair⟩ := Option.map_eq_some_iff.mp unit
  obtain ⟨rfl, rfl⟩ := Prod.mk.inj pair
  obtain ⟨booking, pair⟩ := (Option.ite_none_right_eq_some ..).mp same
  obtain rfl := Option.some.inj pair
  refine ⟨l, (Table.mem_iff_get (State.wf_of_tablesOk tables).1 n l).mp mem, check, ?_, booking⟩
  cases kind : d.content <;> simp [CheckRecord.unit?, CheckRecord.kind, kind] at content ⊢

section
variable {s : State} {p : List Byte} {leaving : Reservation → Taken} {checked : Found → CheckRecord → Taken}

theorem heldBooking_of_malformed (h : decBooking p = none) : heldBooking s p leaving checked = refuseAt s 1 := by
  simp [heldBooking, h]

variable {b : Booking} (booking : decBooking p = some b)
include booking

section
variable (none_ : s.findEntry b = none)
include none_

theorem heldBooking_of_nowhere (check : s.findLoadCheck b = none) :
    heldBooking s p leaving checked = refuse s .unknown := by
  simp [heldBooking, booking, none_, check]

theorem heldBooking_of_loadCheck {k : Nat × CheckRecord} (tables : s.tablesOk = true)
    (check : s.findLoadCheck b = some k) (idle : s.reservationOn k.1 = none) :
    heldBooking s p leaving checked = refuse s .mismatch (u8 k.1 ++ u8 2 ++ u8 1 ++ encBooking b) := by
  obtain ⟨l, lane, record, kind, rfl⟩ := State.findLoadCheck_some tables check
  simp [heldBooking, booking, none_, check, lane, encMovement, idle, record, kind, moveKindCode]

end

variable {g : Found} (found : s.findEntry b = some g)
include found

theorem heldBooking_of_reserved {r : Reservation} (state : g.entry.state = .reserved)
    (held : s.reservationOn g.laneNo = some r) : heldBooking s p leaving checked =
      refuse s .mismatch (u8 g.laneNo ++ u8 1 ++ u8 (moveKindCode r.kind) ++ encBooking r.booking) := by
  simp [heldBooking, booking, found, state, encMovement, held]

theorem heldBooking_of_leaving {r : Reservation} (state : g.entry.state = .leaving)
    (held : s.reservationOn g.laneNo = some r) : heldBooking s p leaving checked = leaving r := by
  simp [heldBooking, booking, found, state, held]

variable (state : g.entry.state = .stowed)
include state

theorem heldBooking_of_checked {c : CheckRecord} (check : g.lane.check = some c) (content : c.content = .discharge)
    (names : c.booking = b) (last : g.position = g.lane.entries.length) :
    heldBooking s p leaving checked = checked g c := by
  simp [heldBooking, booking, found, state, check, content, names, last]

theorem heldBooking_of_stowed (other : ∀ c, g.lane.check = some c →
    c.content ≠ .discharge ∨ c.booking ≠ b ∨ g.position ≠ g.lane.entries.length) :
    heldBooking s p leaving checked = refuse s .noMovement := by
  cases check : g.lane.check with
  | none => simp [heldBooking, booking, found, state, check]
  | some c =>
    have unfit : ¬ (c.content = .discharge ∧ c.booking = b ∧ g.position = g.lane.entries.length) := by
      rintro ⟨content, names, last⟩
      rcases other c check with h | h | h <;> exact h ‹_›
    simp [heldBooking, booking, found, state, check, unfit]

end

theorem State.Planned.bookedOnce {s : State} (h : s.Planned) : (heldBookings s.lanes).Nodup :=
  holdings_bookings s.lanes ▸ h.booked.bookings

/-- A booking at the open end of a lane is found there. -/
theorem findEntry_of_last {s : State} (tables : s.tablesOk = true) (planned : s.Planned) {n : Nat} {l : Lane}
    (lane : s.lanes.get n = some l) {base : List Entry} {e : Entry} (entries : l.entries = base ++ [e]) :
    s.findEntry e.booking = some { laneNo := n, lane := l, position := l.entries.length, entry := e } := by
  have at_ : l.entries[base.length]? = some e := by simp [entries]
  rw [findEntry_of_entry planned.bookedOnce
    ((Table.mem_iff_get (State.wf_of_tablesOk tables).1 n l).mpr lane) at_]
  simp [entries]

/-- OFFLOADED and KEEP share their opening checks. -/
theorem requestOf_discharge {c : Instr} {code : Nat} {st : Station} (h : requestOf c = some (code, st))
    (hc : code = 0x35 ∨ code = 0x36) :
    ∃ (onTime : State → Reservation → Taken) (checked : State → Found → CheckRecord → Taken),
      (∀ s, exec c s = s.takeKind st code fun st p s =>
        confirmation st p s .discharge 10 (onTime s) (heldBooking s p (onTime s) (checked s))) ∧
      (code = 0x36 → ∀ s g k, checked s g k = refuse s .noMovement (encCheck k)) := by
  cases c
  case offloaded =>
    obtain ⟨rfl, rfl⟩ := request_eq h
    exact ⟨offloadOnTime, fun s g k => offloadLate s g.laneNo k g.entry.unit.mass, fun _ => rfl,
      fun wrong => absurd wrong (by decide)⟩
  case keep =>
    obtain ⟨rfl, rfl⟩ := request_eq h
    exact ⟨keepAboard, fun s _ k => refuse s .noMovement (encCheck k), fun _ => rfl, fun _ _ _ _ => rfl⟩
  all_goals
    simp only [requestOf, Option.some.injEq, Prod.mk.injEq, reduceCtorEq] at h <;> omega

/-- A DISCHARGE reservation that a confirmation names, or that stands oldest for its ramp, is taken on time. -/
theorem handleDischarge_taken {s : State} {st : Station} {p : List Byte} {ramp : Nat} {r : Reservation} {l : Lane}
    {base : List Entry} {e : Entry} {onTime : Reservation → Taken} {checked : Found → CheckRecord → Taken}
    (leaving : Leaving s r l base e) {i : Nat}
    (found : s.findEntry e.booking = some { laneNo := r.lane, lane := l, position := i, entry := e })
    (station : rampOf st = some ramp) (mode : s.mode ≠ .profile)
    (named : (p = [] ∧ s.oldest ramp .discharge = some r) ∨
      (p = encBooking r.booking ∧ bookingOk r.booking = true ∧ r.kind = .discharge ∧
        s.reservationOn r.lane = some r)) :
    confirmation st p s .discharge 10 onTime (heldBooking s p onTime checked) = onTime r := by
  rcases named with ⟨rfl, oldest⟩ | ⟨rfl, ok, -, held⟩
  · exact confirmation_of_oldest station mode oldest
  · rw [confirmation_of_specific station mode (encBooking_length ok) (by decide)]
    rw [← (Reservation.claim_eq leaving.claim).1] at found
    exact heldBooking_of_leaving (decBooking_encBooking ok) found leaving.state held

/-- Settles O46: the refusals are the rows of Table 6-4, and a reservation taken leaves the plan that its
entry gives. -/
theorem dischargesAreConfirmed : Obligations.DischargesAreConfirmed := by
  refine ⟨fun c code st s f p ramp request codes o tables station plan => ?_,
    fun st s f p ramp r sound station plan named => ?_⟩
  · obtain ⟨onTime, checked, runs, kept⟩ := requestOf_discharge request codes
    have mode : (s.popMailbox st).mode ≠ .profile := State.ne_profile_of_planMode plan
    have answers {r : Reply} (length : p.length = 10)
        (h : heldBooking (s.popMailbox st) p (onTime (s.popMailbox st)) (checked (s.popMailbox st)) =
          { state := s.popMailbox st, reply := r }) : OnlyAnswers c s st f r :=
      .of_handle (runs s) o tables ((confirmation_of_specific (s := s.popMailbox st) station mode length
        (by decide)).trans h)
    refine ⟨?_, fun length malformed => answers length (heldBooking_of_malformed malformed),
      fun b length booking => ⟨fun none_ => ⟨fun check => ?_, fun k check idle => ?_⟩, fun g found =>
        ⟨fun r state held => ?_, fun state => ⟨fun k check content names last idle keep => ?_, fun other => ?_⟩⟩⟩⟩
    · rintro rfl none_
      exact .of_handle (runs s) o tables (confirmation_of_none (s := s.popMailbox st) station mode none_)
    · exact answers length (heldBooking_of_nowhere (s := s.popMailbox st) booking none_ check)
    · exact answers length (heldBooking_of_loadCheck (s := s.popMailbox st) booking none_ tables check idle)
    · exact answers length (heldBooking_of_reserved (s := s.popMailbox st) booking found state held)
    · have taken := (heldBooking_of_checked (s := s.popMailbox st) (leaving := onTime (s.popMailbox st))
        (checked := checked (s.popMailbox st)) booking found state check content names last).trans
        (kept keep (s.popMailbox st) g k)
      rw [encCheck_of_discharge content, names] at taken
      exact answers length taken
    · exact answers length (heldBooking_of_stowed (s := s.popMailbox st) booking found state other)
  · obtain ⟨tables, ok, planned⟩ := State.settled_of_sound sound
    have mode : (s.popMailbox st).mode ≠ .profile := State.ne_profile_of_planMode plan
    have discharge : r ∈ s.movements ∧ r.kind = .discharge := by
      rcases named with ⟨-, oldest⟩ | ⟨-, -, kind, held⟩
      · exact ⟨(State.oldest_some oldest).1, (State.oldest_some oldest).2.2⟩
      · exact ⟨(State.reservationOn_some held).1, kind⟩
    obtain ⟨l, base, e, leaving⟩ := planned.berthed.leaving tables discharge.1 (.inl discharge.2)
    have popped : Leaving (s.popMailbox st) r l base e := { leaving with }
    have found := findEntry_of_last tables planned leaving.lane leaving.entries
    exact ⟨fun o => .of_resolution (b := s.offloadedBy r) rfl o ((handleDischarge_taken (s := s.popMailbox st)
        popped found station mode named).trans (offloadOnTime_eq popped)) (State.resolved_stations _ _),
      fun o => .of_resolution (b := s.keptBy r) rfl o ((handleDischarge_taken (s := s.popMailbox st) popped
        found station mode named).trans (keepAboard_eq _ r)) (State.resolved_stations _ _)⟩

end Sys2Proof.Machine

/-! Late confirmations, VERIFY and the expiries (spec/06 R104 to R106, R115 to R118). -/

namespace Sys2Proof.Machine

section
variable {s : State} {n : Nat} {l : Lane} {c : CheckRecord} {u : UnitBody}

/-! Late confirmations -/

/-- The HEEL test of a late LASHED, the delta taken out of its pending sum (R116). -/
theorem envelopeOk_dropDelta (s : State) (d : Int) : s.envelopeOk (s.account.dropDelta d) d =
    (decide (0 < d → s.account.tc + s.account.pPlus ≤ s.upperLimit) &&
      decide (d < 0 → s.lowerLimit ≤ s.account.tc + s.account.pMinus)) := by
  rw [Bool.eq_iff_iff]
  simp only [State.envelopeOk, Account.upperWith, Account.lowerWith, Account.upper, Account.lower, Account.dropDelta,
    Bool.and_eq_true, Bool.or_eq_true, decide_eq_true_eq, imp_iff_not_or]
  refine and_congr ?_ ?_ <;> split_ifs <;> rw [decide_eq_true_eq] <;> omega

theorem stowLate_eq (lane : s.lanes.get n = some l) {fits : Bool}
    (heel : s.envelopeOk (s.account.dropDelta c.delta) c.delta = fits) : stowLate s n c u =
      resolution ((s.opStowLate n c u).removeRecord c.booking) n
        (.ack (u8 n ++ encBooking c.booking ++ u8 (l.entries.length + 1) ++ u16 c.offset ++ u8 2 ++
          if fits then [0] else [1, 14]))
        (.unitStowed c.booking n (l.entries.length + 1) c.offset c.ramp u.mass c.delta true (s.account.tc + c.delta) ::
          if fits then [] else [.limitBreach false n c.booking
            [if c.delta > 0 then upperItem ((s.opStowLate n c u).removeRecord c.booking)
              else lowerItem ((s.opStowLate n c u).removeRecord c.booking)]]) := by
  have count : ((s.opStowLate n c u).removeRecord c.booking).entryCount n = l.entries.length + 1 := by
    have added := State.entryCount_of_lanes (s := s) (t := (s.opStowLate n c u).removeRecord c.booking)
      (f := fun q => { q with
        entries := q.entries ++ [{ booking := c.booking, unit := u, offset := c.offset, state := .stowed }]
        check := none, mass := q.mass + u.mass }) rfl lane
    rw [added, List.length_append]
    rfl
  simp only [stowLate, heel, count]
  cases fits <;> rfl

theorem offloadLate_eq (s : State) (n : Nat) (c : CheckRecord) (mass : Nat) : offloadLate s n c mass =
    resolution (s.opOffloadLate n c) n (.ack (u8 n ++ encBooking c.booking ++ u8 2))
      (.unitDischarged c.booking n c.ramp mass c.delta true (s.account.tc + c.delta) ::
        if ((if (s.opOffloadLate n c).account.upper > (s.opOffloadLate n c).upperLimit
            then [upperItem (s.opOffloadLate n c)] else []) ++
          if (s.opOffloadLate n c).account.lower < (s.opOffloadLate n c).lowerLimit
            then [lowerItem (s.opOffloadLate n c)] else []).isEmpty then [] else
          [.limitBreach true n c.booking ((if (s.opOffloadLate n c).account.upper > (s.opOffloadLate n c).upperLimit
            then [upperItem (s.opOffloadLate n c)] else []) ++
          if (s.opOffloadLate n c).account.lower < (s.opOffloadLate n c).lowerLimit
            then [lowerItem (s.opOffloadLate n c)] else [])]) := rfl

/-- The plan after an OFFLOADED taken late: the check record's delta, and the unit `m` gone. -/
def State.offloadedLate (s : State) (n : Nat) (c : CheckRecord) (m : Nat) : State :=
  { s with
    lanes := s.lanes.modify n fun q => { q with entries := q.entries.dropLast, check := none, mass := q.mass - m }
    poolInUse := s.poolInUse - 1
    account := s.account.confirmDelta c.delta
    zones := onZone s.zones c.zone (Zone.unload m) }

theorem opOffloadLate_eq {base : List Entry} {e : Entry} (h : DischargeChecked s n l c base e) :
    s.opOffloadLate n c = s.offloadedLate n c e.unit.mass := by
  rw [State.offloadedLate, ← State.lastMass_of_concat h.lane h.entries]
  rfl

/-- LASHED for a LOAD check record. -/
theorem lashedOn_of_check (idle : s.reservationOn n = none) (check : l.check = some c) (content : c.content = .load u) :
    lashedOn s n l c.booking = lateLashed s n l c u := by
  simp [lashedOn, idle, check, content]

theorem State.reservationOn_none (only : s.reservationsOn n = []) : s.reservationOn n = none := by
  rw [State.reservationOn_eq, only]
  rfl

end

/-- Settles O47. -/
theorem lateConfirmationsAreTaken : Obligations.LateConfirmationsAreTaken := by
  intro st s f ramp n l c sound station plan lane check booking account above below
  obtain ⟨tables, ok, planned⟩ := State.settled_of_sound sound
  have mode : (s.popMailbox st).mode ≠ .profile := State.ne_profile_of_planMode plan
  refine ⟨fun u content o => ?_, fun e content last o => ?_⟩
  · have checked := planned.berthed.loadChecked tables lane check content
    have taken : handleLashed st (u8 n ++ encBooking c.booking) (s.popMailbox st) = lateLashed (s.popMailbox st) n l c u := by
      obtain ⟨length, names⟩ := laneAndBooking_enc (s := s.popMailbox st) (k := lashedOn (s.popMailbox st))
        (laneNumberOk_of_get tables lane) booking lane
      rw [handleLashed, confirmation_of_specific (s := s.popMailbox st) station mode length (by decide), names,
        lashedOn_of_check (s := s.popMailbox st) (State.reservationOn_none checked.only) check content]
    refine ⟨fun long => ?_, fun short high => ?_, fun short low => ?_⟩
    · exact .of_handle rfl o tables (taken.trans (if_pos long))
    · exact .of_handle rfl o tables (taken.trans ((if_neg (Nat.not_lt.mpr short)).trans (if_pos high)))
    · intro stowed fits
      have fitting : lateLashed (s.popMailbox st) n l c u = stowLate (s.popMailbox st) n c u :=
        (if_neg (Nat.not_lt.mpr short)).trans (if_neg (Nat.not_lt.mpr low))
      exact .of_resolution (b := stowed) rfl o (taken.trans (fitting.trans
        (stowLate_eq (s := s.popMailbox st) lane (envelopeOk_dropDelta (s.popMailbox st) c.delta))))
        (State.resolved_stations _ _)
  · intro gone items
    obtain ⟨base, e', checked⟩ := planned.berthed.dischargeChecked tables lane check content
    obtain rfl : e' = e := by simpa [checked.entries] using last
    have found := findEntry_of_last tables planned lane checked.entries
    obtain ⟨named, -, -, -⟩ := CheckRecord.claim_eq checked.claim
    rw [← named] at found
    have popped : DischargeChecked (s.popMailbox st) n l c base e' := { checked with }
    refine .of_resolution (b := gone) rfl o ((confirmation_of_specific (s := s.popMailbox st) station mode
      (encBooking_length booking) (by decide)).trans ((heldBooking_of_checked (s := s.popMailbox st)
        (decBooking_encBooking booking) found checked.state check content rfl rfl).trans
        ((offloadLate_eq (s.popMailbox st) n c e'.unit.mass).trans ?_))) (State.resolved_stations _ _)
    rw [opOffloadLate_eq popped]
    rfl

/-! VERIFY and the expiries -/

section
variable {s : State} {n : Nat} {l : Lane} {c : CheckRecord} {u : UnitBody}

theorem verifyLane_of_none (check : l.check = none) : verifyLane s n l = refuse s .notCheck := by
  simp [verifyLane, check]

theorem verifyLane_of_load (check : l.check = some c) (content : c.content = .load u) : verifyLane s n l =
    resolution ((s.opDropLoadCheck n c u).setUnitState c.booking .announced) n
      (.ack (u8 n ++ u8 1 ++ encBooking c.booking)) [] := by
  simp [verifyLane, check, content]

theorem verifyLane_of_discharge (check : l.check = some c) (content : c.content = .discharge) : verifyLane s n l =
    resolution (s.opDropDischargeCheck n c) n (.ack (u8 n ++ u8 2 ++ encBooking c.booking)) [] := by
  simp [verifyLane, check, content]

end

/-- In a canonical table a change of the record under one number matters there alone. -/
theorem Table.modify_congr_at {α : Type} {t : Table α} {last n : Nat} {l : α} (wf : t.wf last = true)
    (get : t.get n = some l) {f g : α → α} (same : f l = g l) : t.modify n f = t.modify n g := by
  rw [Table.modify_const wf get f, same, ← Table.modify_const wf get g]

section
variable {s : State} {r : Reservation} {l : Lane} {base : List Entry} {e : Entry}

theorem opLapseLoad_eq (tables : s.tablesOk = true) (h : Loading s r l base e) :
    (s.opLapseLoad r.lane r.ramp r.delta r.zone).lanes = s.lanes.modify r.lane fun q =>
      { q with
        entries := q.entries.dropLast
        check := some { booking := r.booking, ramp := r.ramp, delta := r.delta, zone := r.zone, offset := r.offset,
                        content := .load e.unit } } := by
  obtain ⟨booking, -, -, offset⟩ := Reservation.claim_eq h.claim
  dsimp only [State.opLapseLoad, State.onLane]
  refine Table.modify_congr_at (State.wf_of_tablesOk tables).1 h.lane ?_
  simp [h.entries, booking, offset]

theorem opLapseDischarge_eq (tables : s.tablesOk = true) (h : Leaving s r l base e) :
    (s.opLapseDischarge r.lane r.ramp r.delta r.zone).lanes = s.lanes.modify r.lane fun q =>
      { q with
        entries := setLast q.entries .stowed
        check := some { booking := r.booking, ramp := r.ramp, delta := r.delta, zone := r.zone, offset := r.offset,
                        content := .discharge } } := by
  obtain ⟨booking, -, -, offset⟩ := Reservation.claim_eq h.claim
  dsimp only [State.opLapseDischarge, State.onLane]
  refine Table.modify_congr_at (State.wf_of_tablesOk tables).1 h.lane ?_
  simp [h.entries, booking, offset]

theorem State.expiring_of_spent {k : MoveKind} (held : s.reservationOn r.lane = some r) (kind : r.kind = k)
    (spent : r.seconds = 0) : s.expiring r.lane k = some r := by
  simp [State.expiring, held, kind, spent]

end

/-- Settles O48. -/
theorem verifiesAndExpiries : Obligations.VerifiesAndExpiries := by
  refine ⟨fun st s f n l o tables plan number lane reached => ?_,
    fun s r l e sound working held spent lane last => ?_⟩
  · have verifies : handleVerify st (u8 n) (s.popMailbox st) = verifyLane (s.popMailbox st) n l :=
      laneRequest_of_lane (s := s.popMailbox st) reached (State.ne_profile_of_planMode plan) number lane
    refine ⟨fun check => .of_handle rfl o tables (verifies.trans (verifyLane_of_none check)),
      fun c check => ?_⟩
    intro dropped
    exact ⟨fun u content => .of_resolution (b := (s.opDropLoadCheck n c u).setUnitState c.booking .announced) rfl o
        (verifies.trans (verifyLane_of_load (s := s.popMailbox st) check content)) (State.resolved_stations _ _),
      fun content => .of_resolution (b := s.opDropDischargeCheck n c) rfl o
        (verifies.trans (verifyLane_of_discharge (s := s.popMailbox st) check content)) (State.resolved_stations _ _)⟩
  · obtain ⟨tables, ok, planned⟩ := State.settled_of_sound sound
    have mem := (State.reservationOn_some held).1
    intro released record
    refine ⟨fun load => ?_, fun discharge => ?_⟩
    · obtain ⟨l', base, e', loading⟩ := planned.berthed.loading tables mem load
      have loading := loading.unique lane
      obtain rfl : e' = e := by simpa [loading.entries] using last
      refine .of_event (x := ((s.endReservation r).opLapseLoad r.lane r.ramp r.delta r.zone).setUnitState r.booking .check)
        ?_ ?_ rfl
      · show execLoadExpiry r.lane s = _
        simp [execLoadExpiry, working, State.expiring_of_spent held load spent, expiredNotice, load]
      · rw [← opLapseLoad_eq tables loading]
        rfl
    · obtain ⟨l', base, e', leaving⟩ := planned.berthed.leaving tables mem (.inl discharge)
      obtain rfl := Option.some.inj (leaving.lane.symm.trans lane)
      refine .of_event (x := (s.endReservation r).opLapseDischarge r.lane r.ramp r.delta r.zone) ?_ ?_ rfl
      · show execDischargeExpiry r.lane s = _
        simp [execDischargeExpiry, working, State.expiring_of_spent held discharge spent, expiredNotice, discharge]
      · rw [← opLapseDischarge_eq tables leaving]
        rfl

end Sys2Proof.Machine

/-! The plan clock and the reservation timeout (spec/06 R103, spec/07 R132 to R135). -/

namespace Sys2Proof.Machine

/-! The check for cut-off -/

/-- The record of a booking that one of `ws` holds becomes EXCLUDED (R135). -/
def UnitRecord.shutOut (ws : List Waiting) (r : UnitRecord) : UnitRecord :=
  if ws.any fun w => decide (w.booking = r.booking) then { r with state := .excluded } else r

theorem shutOut_fold_register (ws : List Waiting) (s : State) :
    (ws.foldl (fun t w => t.setUnitState w.booking .excluded) s).register = s.register.map (UnitRecord.shutOut ws) := by
  induction ws generalizing s with
  | nil => exact (List.map_id' s.register).symm
  | cons w rest ih =>
    rw [List.foldl_cons, ih, State.setUnitState, List.map_map]
    refine List.map_congr_left fun r _ => ?_
    by_cases first : r.booking = w.booking
    · simp [UnitRecord.shutOut, first]
    · simp [UnitRecord.shutOut, first, Ne.symm first]

/-- The Waiting List shut out at the cut-off time `t` (R135). -/
def State.cutOffAt (s : State) (t : Nat) : State :=
  { s with
    clock := { now := s.clock.now, cutoff := some t, reached := true }
    waiting := []
    register := s.register.map (UnitRecord.shutOut s.waiting) }

section
variable {s : State}

theorem State.checkCutoff_of_reached {t : Nat} (cutoff : s.clock.cutoff = some t) (open_ : s.clock.reached = false)
    (due : t ≤ s.clock.now) : s.checkCutoff = (s.cutOffAt t,
      .cutoffReached t s.clock.now s.waiting.length :: s.waiting.flatMap (shutOutNotices t)) := by
  have shut : s.shutOutAll = { s with register := s.register.map (UnitRecord.shutOut s.waiting), waiting := [] } := by
    rw [State.shutOutAll_eq, State.shutOutAll, shutOut_fold_register]
  simp only [State.checkCutoff, cutoff, open_, due, and_self, if_true, shut, State.cutOffAt]

theorem State.checkCutoff_of_short
    (short : ¬ ∃ t, s.clock.cutoff = some t ∧ s.clock.reached = false ∧ t ≤ s.clock.now) :
    s.checkCutoff = (s, []) := by
  cases cutoff : s.clock.cutoff with
  | none => simp [State.checkCutoff, cutoff]
  | some t =>
    have unmet : ¬ (s.clock.reached = false ∧ t ≤ s.clock.now) := fun met => short ⟨t, cutoff, met⟩
    simp [State.checkCutoff, cutoff, unmet]

end

/-! CLOCK, CLOCK_ADVANCE and TIMEOUT -/

/-- The plan clock takes a value. -/
def State.atTime (s : State) (v : Nat) : State := { s with clock := { s.clock with now := v } }

theorem State.atTime_quiet (s : State) (v : Nat) : QuietFrom s (s.atTime v) := ⟨rfl, rfl, rfl, rfl, rfl, rfl, rfl⟩

theorem State.cutOffAt_quiet (s : State) (v t : Nat) : QuietFrom s ((s.atTime v).cutOffAt t) :=
  ⟨rfl, rfl, rfl, rfl, rfl, rfl, rfl⟩

/-- What the check for cut-off leaves and sends once the clock has taken a value. -/
theorem handleClock_eq {s : State} {v : Nat} (mode : s.mode ≠ .profile) (small : v ≤ 4294967295) {t : State}
    {notices : List Notice} (checked : (s.atTime v).checkCutoff = (t, notices)) : handleClock .loading (u32 v) s =
      { state := t, reply := .ack (u32 v ++ u32 (t.clock.cutoff.getD 0) ++ u8 (flagCode t.clock.reached)),
        head := notices } := by
  have value : natOf (u32 v) = v := natOf_u32 (by omega)
  have length : (u32 v).length = 4 := rfl
  have checked : State.checkCutoff { s with clock := { s.clock with now := v } } = (t, notices) := checked
  simp [handleClock, mode, value, length, checked, optNat_eq]

theorem execClockAdvance_eq {s : State} (working : s.working = true) (plan : s.planMode = true) {t : State}
    {notices : List Notice} (checked : (s.atTime (min 4294967295 (s.clock.now + 1))).checkCutoff = (t, notices)) :
    execClockAdvance s = t.event s notices [] := by
  have checked : State.checkCutoff { s with clock := { s.clock with now := min Config.maxTime (s.clock.now + 1) } } =
    (t, notices) := checked
  simp [execClockAdvance, working, plan, checked]

theorem handleTimeout_eq (s : State) {v : Int} (low : -32768 ≤ v) (high : v < 32768) : handleTimeout .loading (i16 v) s =
    acknowledge { s with timeout := (clampInt 60 900 v).toNat } (u16 (clampInt 60 900 v).toNat) := by
  have length : (i16 v).length = 2 := rfl
  simp [handleTimeout, intOf_i16 low high, length]

/-- Settles O50: what the check for cut-off does with the clock's new value decides. -/
theorem clockRunsToTheCutoff : Obligations.ClockRunsToTheCutoff := by
  refine ⟨fun s tables working plan => ?_, fun s f v low high tables o => ?_⟩
  · intro shut notices reaches
    refine ⟨fun f v small o => ⟨fun short => ?_, fun t cutoff open_ due => ?_⟩, ?_⟩
    · have mode : (s.popMailbox .loading).mode ≠ .profile := State.ne_profile_of_planMode plan
      exact State.takeKind_quiet o handleClock (handleClock_eq mode small
        (State.checkCutoff_of_short (s := (s.popMailbox .loading).atTime v) short)) tables (State.atTime_quiet _ v)
    · have mode : (s.popMailbox .loading).mode ≠ .profile := State.ne_profile_of_planMode plan
      exact State.takeKind_quiet o handleClock (handleClock_eq mode small
        (State.checkCutoff_of_reached (s := (s.popMailbox .loading).atTime v) cutoff open_ due)) tables
        (State.cutOffAt_quiet _ v t)
    · intro now
      refine ⟨fun short => ?_, fun t cutoff open_ due => ?_⟩
      · exact (execClockAdvance_eq working plan (State.checkCutoff_of_short (s := s.atTime now) short)).trans
          (State.event_quiet tables (State.atTime_quiet s now) [])
      · exact (execClockAdvance_eq working plan (State.checkCutoff_of_reached (s := s.atTime now) cutoff open_ due)).trans
          (State.event_quiet tables (State.cutOffAt_quiet s now t) _)
  · intro seconds
    exact State.takeKind_quiet o handleTimeout (handleTimeout_eq _ low high) tables ⟨rfl, rfl, rfl, rfl, rfl, rfl, rfl⟩

end Sys2Proof.Machine

/-! Deck sections (spec/08): what a change of one section leaves, how it is reported, and the checks that MOVE,
CANCEL_MOVE and CLEAR_FAULT share; then MOVE, CANCEL_MOVE and the end of a wait (R140 to R143). -/

namespace Sys2Proof.Machine

/-! A change of one section -/

section
variable {s : State} {n : Nat} {c : Sect} (here : s.sections.get n = some c)
include here

theorem State.onSection_get (f : Sect → Sect) : (s.onSection n f).sections.get n = some (f c) := by
  simp [State.onSection, here]

theorem State.onSection_notice (f : Sect → Sect) (before : SectState) (cause : SectCause) :
    (s.onSection n f).sectionNotice n before cause =
      [.sectionState n before (f c).state (f c).position (f c).target (f c).faultHeld cause] := by
  simp [State.sectionNotice, State.onSection_get here]

theorem State.onSection_ofSection (f : Sect → Sect) (shown : Sect → List Byte) :
    (s.onSection n f).ofSection n shown = shown (f c) := by
  simp [State.ofSection, State.onSection_get here]

/-- In a canonical table the section is replaced by what the change makes of it. -/
theorem State.onSection_const (tables : s.tablesOk = true) (f : Sect → Sect) :
    s.onSection n f = { s with sections := s.sections.modify n fun _ => f c } := by
  rw [State.onSection, Table.modify_const (State.wf_of_tablesOk tables).2.2.2 here f]

end

/-! The checks of the requests for a section -/

section
variable {s : State} {n len : Nat} {p : List Byte} {shown : Sect → List Byte} {k : Nat → Sect → Taken} {other : Bool}
  (mode : s.mode ≠ .profile) (length : p.length = len) (names : natOf (field p 0 1) = n)
include mode length names

theorem sectionRequest_of_out (out : sectionNumberOk n = false) :
    sectionRequest .loading p s len other shown k = refuseAt s 1 := by
  simp [sectionRequest, mode, length, names, out]

variable {c : Sect} (number : sectionNumberOk n = true) (fitted : s.fittedSection n = some c)
include number fitted

theorem sectionRequest_of_section : sectionRequest .loading p s len true shown k = k n c := by
  simp [sectionRequest, mode, length, names, number, fitted]

theorem sectionRequest_of_other : sectionRequest .loading p s len false shown k = refuseAt s 2 0 (shown c) := by
  simp [sectionRequest, mode, length, names, number, fitted, State.namedSection]

end

section
variable {s : State} {n : Nat} (mode : s.mode ≠ .profile)
include mode

theorem handleMove_of_out (x : Nat) (small : n < 256) (out : sectionNumberOk n = false) :
    handleMove .loading (u8 n ++ u8 x) s = refuseAt s 1 :=
  sectionRequest_of_out mode rfl (natOf_field_u8_front small _) out

theorem handleCancelMove_of_out (small : n < 256) (out : sectionNumberOk n = false) :
    handleCancelMove .loading (u8 n) s = refuseAt s 1 :=
  sectionRequest_of_out mode rfl (natOf_field_u8 small) out

variable {c : Sect} (number : sectionNumberOk n = true) (fitted : s.fittedSection n = some c)
include number fitted

theorem handleMove_of_section (p : Position) :
    handleMove .loading (u8 n ++ u8 (positionCode (some p))) s = moveSection p s n c := by
  have small : positionCode (some p) < 256 := by cases p <;> decide
  unfold handleMove
  rw [natOf_field_u8_second n small, positionOf_positionCode]
  exact sectionRequest_of_section mode rfl (natOf_field_u8_front (sectionNumberOk_small number) _) number fitted

theorem handleMove_of_no_position {x : Nat} (none_ : x = 0 ∨ 3 < x) (small : x < 256) :
    handleMove .loading (u8 n ++ u8 x) s = refuseAt s 2 0 (encSect c) := by
  have unnamed : positionOf x = none := by
    have unequal : x ≠ 1 ∧ x ≠ 2 ∧ x ≠ 3 := by omega
    simp [positionOf, unequal]
  unfold handleMove
  rw [natOf_field_u8_second n small, unnamed]
  exact sectionRequest_of_other mode rfl (natOf_field_u8_front (sectionNumberOk_small number) _) number fitted

theorem handleCancelMove_of_section : handleCancelMove .loading (u8 n) s = cancelSection s n c :=
  sectionRequest_of_section mode rfl (natOf_field_u8 (sectionNumberOk_small number)) number fitted

end

/-! MOVE from check 5 on -/

theorem tallest_mem {us : List Standing} {u : Standing} (h : tallest us = some u) : u ∈ us := by
  have general (us : List Standing) (best : Option Standing)
      (h : us.foldl (fun best u => match best with
        | none => some u
        | some b => if b.height < u.height then some u else some b) best = some u) : best = some u ∨ u ∈ us := by
    induction us generalizing best with
    | nil => exact .inl h
    | cons x rest ih =>
      rcases ih _ h with found | found
      · cases best with
        | none => exact .inr (List.mem_cons.mpr (.inl (Option.some.inj found).symm))
        | some b =>
          dsimp only at found
          split_ifs at found
          · exact .inr (List.mem_cons.mpr (.inl (Option.some.inj found).symm))
          · exact .inl found
      · exact .inr (List.mem_cons_of_mem _ found)
  simpa using general us none h

section
variable {s : State} {n : Nat} {c : Sect} {p : Position}

theorem moveSection_of_there (holds : c.holds = true) (there : c.position = some p) :
    moveSection p s n c = acknowledge s (encSect c) := by
  simp [moveSection, holds, there]

theorem moveSection_of_busy (busy : c.state = .moving ∨ (c.state = .movePending ∧ c.position ≠ some p)) :
    moveSection p s n c = refuse s .busy (encSect c) := by
  rcases busy with state | ⟨state, elsewhere⟩
  · simp [moveSection, Sect.holds, state]
  · simp [moveSection, state, elsewhere]

theorem moveSection_of_fault (state : c.state = .fault) : moveSection p s n c = refuse s .sectionFault (encSect c) := by
  simp [moveSection, Sect.holds, state]

variable (state : c.state = .atPosition) (elsewhere : c.position ≠ some p)
include state elsewhere

theorem moveSection_of_loaded {x : Nat × Nat} (loaded : s.loadedLane n = some x) :
    moveSection p s n c = refuse s .loaded (u8 x.1 ++ u8 x.2 ++ encSect c) := by
  simp [moveSection, state, elsewhere, loaded]

variable (free : s.loadedLane n = none)
include free

theorem moveSection_of_low {u : Standing} (tall : tallest (s.unitsBeneath n) = some u)
    (low : c.clearances.beneath p < u.height) : moveSection p s n c =
      refuse s .clearance (u16 (c.clearances.beneath p) ++ u16 u.height ++ u8 u.lane ++ encBooking u.booking ++
        encSect c) := by
  simp [moveSection, state, elsewhere, free, tall, low]

theorem moveSection_of_clear (clear : ∀ u ∈ s.unitsBeneath n, u.height ≤ c.clearances.beneath p) :
    moveSection p s n c = startMove s n p := by
  cases tall : tallest (s.unitsBeneath n) with
  | none => simp [moveSection, state, elsewhere, free, tall]
  | some u => simp [moveSection, state, elsewhere, free, tall, clear u (tallest_mem tall)]

end

section
variable {s : State} {n : Nat} {c : Sect} (tables : s.tablesOk = true) (here : s.sections.get n = some c) (p : Position)
include tables here

theorem startMove_of_free (idle : s.pendingLanes n = []) : startMove s n p =
    { state := { s with sections := s.sections.modify n fun _ => c.toMoving (some p) }
      reply := .ack (encSect (c.toMoving (some p)))
      tail := [.sectionState n .atPosition .moving none (some p) c.faultHeld .move] } := by
  simp only [startMove, idle, List.isEmpty_nil, if_true, State.onSection_ofSection here, State.onSection_notice here]
  rw [State.onSection_const here tables]
  rfl

theorem startMove_of_pending (busy : s.pendingLanes n ≠ []) : startMove s n p =
    { state := { s with sections := s.sections.modify n fun _ => { c with state := .movePending, target := some p } }
      reply := .ack (encSect { c with state := .movePending, target := some p } ++ encNums (s.pendingLanes n))
      tail := [.sectionState n .atPosition .movePending c.position (some p) c.faultHeld .move] } := by
  simp only [startMove, List.isEmpty_iff, busy, if_false, State.onSection_ofSection here,
    State.onSection_notice here]
  rw [State.onSection_const here tables]

end

/-! CANCEL_MOVE and the end of a wait -/

section
variable {s : State} {n : Nat} {c : Sect}

theorem cancelSection_of_not_pending (state : c.state ≠ .movePending) :
    cancelSection s n c = refuse s .noMovement (encSectBrief c) := by
  cases h : c.state
  case movePending => exact absurd h state
  all_goals simp [cancelSection, h]

variable (state : c.state = .movePending)
include state

theorem cancelSection_of_held (held : c.faultHeld = true) :
    cancelSection s n c = refuse s .sectionFault (encSectBrief c) := by
  simp [cancelSection, state, held]

theorem cancelSection_of_waiting (tables : s.tablesOk = true) (here : s.sections.get n = some c)
    (free : c.faultHeld = false) : cancelSection s n c =
      { state := { s with sections := s.sections.modify n fun _ => { c with state := .atPosition, target := none } }
        reply := .ack (encSectBrief { c with state := .atPosition, target := none })
        tail := [.sectionState n .movePending .atPosition c.position none false .cancel], trigger := true } := by
  simp only [cancelSection, state, free, Bool.false_eq_true, if_false, State.onSection_ofSection here,
    State.onSection_notice here]
  rw [State.onSection_const here tables]
  simp only [free]

end

theorem State.resolved_of_no_section {s : State} {n : Nat}
    (none_ : ∀ l k, s.lanes.get n = some l → l.profile.relation.section? = some k → s.sections.get k = none) :
    s.resolved n = (s, []) := by
  unfold State.resolved
  cases lane : s.lanes.get n with
  | none => rfl
  | some l =>
    cases relation : l.profile.relation.section? with
    | none => simp [relation]
    | some k => simp [relation, none_ l k lane relation]

section
variable {s : State} {n k : Nat} {l : Lane} {c : Sect} (lane : s.lanes.get n = some l)
  (relation : l.profile.relation.section? = some k) (here : s.sections.get k = some c)
include lane relation here

theorem State.resolved_of_calm (calm : c.state ≠ .movePending ∨ s.pendingLanes k ≠ []) : s.resolved n = (s, []) := by
  have waits : ¬ (c.state = .movePending ∧ s.pendingLanes k = []) := fun h => calm.elim (· h.1) (· h.2)
  simp [State.resolved, lane, relation, here, waits]

variable (state : c.state = .movePending) (idle : s.pendingLanes k = [])
include state idle

theorem State.resolved_of_waiting (free : c.faultHeld = false) : s.resolved n =
    (s.onSection k (Sect.toMoving c.target), [.sectionState k .movePending .moving none c.target false .waitOver]) := by
  simp [State.resolved, lane, relation, here, state, idle, free, State.onSection_notice here, Sect.toMoving]

theorem State.resolved_of_held (held : c.faultHeld = true) {cause : FaultCause} (caused : c.cause = some cause) :
    s.resolved n = (s.onSection k (Sect.toFault cause),
      [.sectionState k .movePending .fault none none false (.fault cause)]) := by
  simp [State.resolved, lane, relation, here, state, idle, held, caused, State.onSection_notice here, Sect.toFault]

end

/-- Settles O51. -/
theorem sectionsMoveWaitAndCancel : Obligations.SectionsMoveWaitAndCancel := by
  refine ⟨fun s f n c p o tables plan number fitted => ?move, fun s f n x c o tables plan number none_ small fitted => ?noPosition,
    fun s f n x tables plan small out => ?out, fun s f n c o tables plan number fitted => ?cancel,
    fun s n none_ => State.resolved_of_no_section none_, fun s n k l c lane relation here => ?resolved⟩
  case move =>
    have here : (s.popMailbox .loading).sections.get n = some c := (State.fittedSection_some fitted).2
    have moves : handleMove .loading (u8 n ++ u8 (positionCode (some p))) (s.popMailbox .loading) =
        moveSection p (s.popMailbox .loading) n c :=
      handleMove_of_section (s := s.popMailbox .loading) (State.ne_profile_of_planMode plan) number fitted p
    refine ⟨fun holds there => .of_handle rfl o tables (moves.trans (moveSection_of_there holds there)),
      fun busy => .of_handle rfl o tables (moves.trans (moveSection_of_busy busy)),
      fun fault => .of_handle rfl o tables (moves.trans (moveSection_of_fault fault)), fun state elsewhere =>
        ⟨fun x loaded => .of_handle rfl o tables (moves.trans (moveSection_of_loaded (s := s.popMailbox .loading)
            state elsewhere loaded)),
          fun free u tall low => .of_handle rfl o tables (moves.trans (moveSection_of_low (s := s.popMailbox .loading)
            state elsewhere free tall low)),
          fun free clear => ?_⟩⟩
    have starts := moves.trans (moveSection_of_clear (s := s.popMailbox .loading) state elsewhere free clear)
    refine ⟨fun idle => ?_, fun busy => ?_⟩
    · exact .of_taken rfl o (starts.trans (startMove_of_free (s := s.popMailbox .loading) tables here p idle)) rfl rfl
    · exact .of_taken rfl o (starts.trans (startMove_of_pending (s := s.popMailbox .loading) tables here p busy)) rfl rfl
  case noPosition =>
    exact .of_handle rfl o tables (handleMove_of_no_position (s := s.popMailbox .loading)
      (State.ne_profile_of_planMode plan) number fitted none_ small)
  case out =>
    have mode : (s.popMailbox .loading).mode ≠ .profile := State.ne_profile_of_planMode plan
    exact ⟨fun o => .of_handle rfl o tables (handleMove_of_out mode x small out),
      fun o => .of_handle rfl o tables (handleCancelMove_of_out mode small out)⟩
  case cancel =>
    have here : (s.popMailbox .loading).sections.get n = some c := (State.fittedSection_some fitted).2
    have cancels : handleCancelMove .loading (u8 n) (s.popMailbox .loading) = cancelSection (s.popMailbox .loading) n c :=
      handleCancelMove_of_section (s := s.popMailbox .loading) (State.ne_profile_of_planMode plan) number fitted
    exact ⟨fun state => .of_handle rfl o tables (cancels.trans (cancelSection_of_not_pending state)),
      fun state held => .of_handle rfl o tables (cancels.trans (cancelSection_of_held state held)),
      fun state free => .of_taken rfl o (cancels.trans (cancelSection_of_waiting (s := s.popMailbox .loading) state
        tables here free)) rfl rfl⟩
  case resolved =>
    exact ⟨State.resolved_of_calm lane relation here, State.resolved_of_waiting lane relation here,
      fun cause state idle held caused => State.resolved_of_held lane relation here state idle held caused⟩

end Sys2Proof.Machine

/-! The inputs, the move timer and the faults of deck sections (spec/08 R138, R144 to R147). -/

namespace Sys2Proof.Machine

/-! A section that comes to hold a position -/

/-- The clearance a lane has once section `n` stands at `p`: that above it or beneath it (R5). -/
def Lane.clearedBy (n : Nat) (k : Clearances) (p : Position) (l : Lane) : Lane :=
  if l.isOn n then { l with clearance := k.above p }
  else if l.isBeneath n then { l with clearance := k.beneath p }
  else l

theorem Lane.clearedBy_eq (n : Nat) (k : Clearances) (p : Position) (l : Lane) :
    (if l.affectedBy n then { l with clearance := l.clearanceAt k n p } else l) = l.clearedBy n k p := by
  cases relation : l.profile.relation with
  | none => simp [Lane.clearedBy, Lane.affectedBy, Lane.isOn, Lane.isBeneath, relation, Relation.section?]
  | on m =>
    by_cases e : m = n <;>
      simp [Lane.clearedBy, Lane.clearanceAt, Lane.affectedBy, Lane.isOn, Lane.isBeneath, relation, Relation.section?, e]
  | beneath m =>
    by_cases e : m = n <;>
      simp [Lane.clearedBy, Lane.clearanceAt, Lane.affectedBy, Lane.isOn, Lane.isBeneath, relation, Relation.section?, e]

section
variable {s : State} {n : Nat} {c : Sect} (here : s.sections.get n = some c) (p : Position)
include here

theorem State.settleAt_eq : s.settleAt n p =
    { s with
      sections := s.sections.modify n (Sect.toPosition p)
      lanes := s.lanes.mapAll (Lane.clearedBy n c.clearances p) } := by
  rw [State.settleAt, State.setClearances, State.onSection_get here]
  simp only [State.onSection, Lane.clearedBy_eq, Sect.toPosition]

theorem State.settleAt_get : (s.settleAt n p).sections.get n = some (c.toPosition p) := by
  rw [State.settleAt_eq here]
  exact State.onSection_get here _

theorem State.settleAt_notice (before : SectState) (cause : SectCause) : (s.settleAt n p).sectionNotice n before cause =
    [.sectionState n before .atPosition (some p) none c.faultHeld cause] := by
  rw [State.sectionNotice, State.settleAt_get here]
  rfl

end

/-! The inputs of a section -/

theorem inputCount_eq_zero {i : Inputs} (h : inputCount i = 0) : i = { raised := false, mid := false, lowered := false } := by
  obtain ⟨r, m, l⟩ := i
  revert h
  cases r <;> cases m <;> cases l <;> decide

theorem shownPosition_of_count_ne_one {i : Inputs} (h : inputCount i ≠ 1) : shownPosition i = none := by
  obtain ⟨r, m, l⟩ := i
  revert h
  cases r <;> cases m <;> cases l <;> decide

/-- The pins stand at the levels set. -/
theorem State.setInputs_sectionInputs {s : State} (tables : s.tablesOk = true) (n : Nat) (levels : Inputs) :
    (s.setInputs n levels).sectionInputs n = levels := by
  by_cases none_ : inputCount levels = 0
  · rw [inputCount_eq_zero none_]
    have wf : s.inputs.wf Config.sectionCount = true := by
      obtain ⟨-, -, -, -, inputs⟩ := (State.tablesOk_iff s).mp tables
      exact inputs
    have gone : (s.inputs.erase n).get n = none := Table.get_erase_self (Table.rising_of_wf wf) n
    have zero : inputCount { raised := false, mid := false, lowered := false } = 0 := rfl
    simp [State.sectionInputs, State.setInputs, zero, gone]
  · simp [State.sectionInputs, State.setInputs, none_]

section
variable {s : State} {n : Nat} {c : Sect} {levels : Inputs} (shows : s.sectionInputs n = levels)
include shows

omit shows in
theorem State.inputsTaken_of_fault (state : c.state = .fault) : s.inputsTaken n c = (s, []) := by
  simp [State.inputsTaken, state]

section
variable (state : c.state = .moving)
include state

theorem State.inputsTaken_of_between (none_ : inputCount levels = 0) : s.inputsTaken n c = (s, []) := by
  have unplaced : shownPosition levels = none := shownPosition_of_count_ne_one (by omega)
  simp [State.inputsTaken, State.inputsMoving, state, shows, unplaced, none_]

theorem State.inputsTaken_of_origin {p : Position} (shown : shownPosition levels = some p) (other : c.target ≠ some p)
    (origin : c.origin = some p) : s.inputsTaken n c = (s, []) := by
  simp [State.inputsTaken, State.inputsMoving, state, shows, shown, other, origin]

variable (here : s.sections.get n = some c)
include here

theorem State.inputsTaken_of_several (several : 2 ≤ inputCount levels) : s.inputsTaken n c =
    (s.onSection n (Sect.toFault .multipleInputs),
      [.sectionState n c.state .fault none none false (.fault .multipleInputs)]) := by
  have unplaced : shownPosition levels = none := shownPosition_of_count_ne_one (by omega)
  have some_ : inputCount levels ≠ 0 := by omega
  simp [State.inputsTaken, State.inputsMoving, state, shows, unplaced, some_, State.onSection_notice here, Sect.toFault]

variable {p : Position} (shown : shownPosition levels = some p)
include shown

theorem State.inputsTaken_of_wrong (other : c.target ≠ some p) (left_ : c.origin ≠ some p) : s.inputsTaken n c =
    (s.onSection n (Sect.toFault .wrongInput),
      [.sectionState n c.state .fault none none false (.fault .wrongInput)]) := by
  simp [State.inputsTaken, State.inputsMoving, state, shows, shown, other, left_, State.onSection_notice here,
    Sect.toFault]

theorem State.inputsTaken_of_target (target : c.target = some p) : s.inputsTaken n c =
    (s.settleAt n p, [.sectionState n .moving .atPosition (some p) none c.faultHeld .arrival]) := by
  simp [State.inputsTaken, State.inputsMoving, state, shows, shown, target, State.settleAt_notice here]

end

section
variable (holds : c.holds = true)
include holds

omit shows in
theorem State.inputsTaken_of_agree (agrees : s.inputsAgree n c = true) : s.inputsTaken n c = (s, []) := by
  simp only [Sect.holds, Bool.or_eq_true, decide_eq_true_eq] at holds
  rcases holds with state | state <;> simp [State.inputsTaken, State.inputsHeld, state, agrees]

theorem State.inputsTaken_of_disagree (agrees : s.inputsAgree n c = false) : s.inputsTaken n c =
    (s.sensorFault n (sensorCause levels),
      (s.sensorFault n (sensorCause levels)).sectionNotice n c.state (.fault (sensorCause levels))) := by
  simp only [Sect.holds, Bool.or_eq_true, decide_eq_true_eq] at holds
  rcases holds with state | state <;> simp [State.inputsTaken, State.inputsHeld, state, agrees, shows]

end

omit shows in
theorem State.inputsAgree_of_held (held : c.faultHeld = true) : s.inputsAgree n c = true := by
  simp [State.inputsAgree, held]

theorem State.inputsAgree_of_shown {p : Position} (shown : shownPosition levels = some p) (there : c.position = some p) :
    s.inputsAgree n c = true := by
  simp [State.inputsAgree, shows, shown, there]

theorem State.inputsAgree_of_elsewhere (free : c.faultHeld = false)
    (elsewhere : ∀ p, shownPosition levels = some p → c.position ≠ some p) : s.inputsAgree n c = false := by
  cases shown : shownPosition levels with
  | none => simp [State.inputsAgree, shows, free, shown]
  | some p => simp [State.inputsAgree, shows, free, shown, Ne.symm (elsewhere p shown)]

end

theorem State.sensorFault_of_free {s : State} {n : Nat} (idle : s.pendingLanes n = []) (cause : FaultCause) :
    s.sensorFault n cause = s.onSection n (Sect.toFault cause) := by
  simp [State.sensorFault, idle]

theorem State.sensorFault_of_pending {s : State} {n : Nat} (busy : s.pendingLanes n ≠ []) (cause : FaultCause) :
    s.sensorFault n cause = s.onSection n (Sect.toHeldFault cause) := by
  simp [State.sensorFault, busy]

/-! SECTION_INPUT_CHANGE and MOVE_TIMER_EXPIRY -/

section
variable {s : State} {n : Nat} {levels : Inputs} (number : sectionNumberOk n = true)
include number

theorem exec_sectionInputChange_of_unwatched
    (unwatched : s.working = false ∨ s.planMode = false ∨ s.sectionInputs n = levels ∨ s.fittedSection n = none) :
    exec (.sectionInputChange n levels) s = .next (s.setInputs n levels) := by
  show execSectionInputChange n levels s = _
  rcases unwatched with h | h | h | h <;> simp [execSectionInputChange, number, h]

theorem exec_sectionInputChange_of_change (working : s.working = true) (plan : s.planMode = true)
    (changed : s.sectionInputs n ≠ levels) {c : Sect} (fitted : s.fittedSection n = some c) {t : State}
    {tail : List Notice} (taken : (s.setInputs n levels).inputsTaken n c = (t, tail)) :
    exec (.sectionInputChange n levels) s = t.event s [] tail := by
  show execSectionInputChange n levels s = _
  simp [execSectionInputChange, number, working, plan, changed, fitted, taken]

end

/-- Settles O52: the case that the section's state and its inputs select is the one R138 and R144 to R146 give. -/
theorem sectionsFollowTheirInputs : Obligations.SectionsFollowTheirInputs := by
  intro s n levels number tables pins
  have shows : pins.sectionInputs n = levels := State.setInputs_sectionInputs tables n levels
  refine ⟨shows, exec_sectionInputChange_of_unwatched number, fun working plan changed c fitted => ?_⟩
  intro faulted nothing
  have here : pins.sections.get n = some c := (State.fittedSection_some fitted).2
  have taken {t : State} {tail : List Notice} (h : pins.inputsTaken n c = (t, tail)) :
      exec (.sectionInputChange n levels) s = t.event s [] tail :=
    exec_sectionInputChange_of_change number working plan changed fitted h
  have calm (h : pins.inputsTaken n c = (pins, [])) : nothing :=
    (taken h).trans (State.event_quiet (t := pins) tables ⟨rfl, rfl, rfl, rfl, rfl, rfl, rfl⟩ [])
  refine ⟨fun state => calm (State.inputsTaken_of_fault state), fun state =>
      ⟨fun none_ => calm (State.inputsTaken_of_between shows state none_), fun several => ?_,
        fun p shown => ⟨fun other origin => calm (State.inputsTaken_of_origin shows state shown other origin),
          fun other left_ => ?_, fun target => ?_⟩⟩,
    fun holds => ⟨fun held => calm (State.inputsTaken_of_agree holds (State.inputsAgree_of_held held)),
      fun _ ⟨p, shown, there⟩ => calm (State.inputsTaken_of_agree holds
        (State.inputsAgree_of_shown shows shown there)), fun free elsewhere => ?_⟩⟩
  · exact .of_event (taken (State.inputsTaken_of_several shows state here several)) rfl rfl
  · exact .of_event (taken (State.inputsTaken_of_wrong shows state here shown other left_)) rfl rfl
  · have settled := State.settleAt_eq here p
    refine .of_event (taken (State.inputsTaken_of_target shows state here shown target)) ?_ rfl
    rw [settled]
    rfl
  · intro cause
    have disagrees := State.inputsTaken_of_disagree shows holds (State.inputsAgree_of_elsewhere shows free elsewhere)
    refine ⟨fun idle => ?_, fun busy => ?_⟩
    · rw [State.sensorFault_of_free (s := pins) idle, State.onSection_notice here] at disagrees
      exact .of_event (taken disagrees) rfl rfl
    · rw [State.sensorFault_of_pending (s := pins) busy, State.onSection_notice here] at disagrees
      exact .of_event (taken disagrees) rfl rfl

/-! CLEAR_FAULT -/

section
variable {s : State} {n : Nat} {c : Sect}

theorem clearSection_of_moving (state : c.state = .moving) : clearSection s n c = refuse s .busy := by
  simp [clearSection, state]

theorem clearSection_of_held (state : c.state = .movePending) (held : c.faultHeld = true) :
    clearSection s n c = refuse s .busy := by
  simp [clearSection, state, held]

theorem clearSection_of_waiting (state : c.state = .movePending) (free : c.faultHeld = false) :
    clearSection s n c = acknowledge s [] := by
  simp [clearSection, state, free]

theorem clearSection_of_rest (state : c.state = .atPosition) : clearSection s n c = acknowledge s [] := by
  simp [clearSection, state]

variable (state : c.state = .fault)
include state

theorem clearSection_of_unplaced (unplaced : shownPosition (s.sectionInputs n) = none) :
    clearSection s n c = refuse s .noPosition (u8 (inputCount (s.sectionInputs n))) := by
  simp [clearSection, readFault, state, unplaced]

variable {p : Position} (shown : shownPosition (s.sectionInputs n) = some p)
include shown

theorem clearSection_of_loaded {x : Nat × Nat} (raised : p = .raised) (loaded : s.loadedLane n = some x) :
    clearSection s n c = refuse s .loaded (u8 x.1 ++ u8 x.2) := by
  simp [clearSection, readFault, state, shown, loaded, raised]

theorem clearSection_of_clear (clear : p ≠ .raised ∨ s.loadedLane n = none) :
    clearSection s n c = clearAt s n c p := by
  cases loaded : s.loadedLane n with
  | none => simp [clearSection, readFault, state, shown, loaded]
  | some x =>
    have lower : p ≠ .raised := clear.resolve_right (by simp [loaded])
    simp [clearSection, readFault, state, shown, loaded, lower]

end

theorem clearAt_eq {s : State} {n : Nat} {c : Sect} (here : s.sections.get n = some c) (p : Position) :
    clearAt s n c p =
      { state := { s with
          sections := s.sections.modify n fun q => { q.toPosition p with cause := none }
          lanes := s.lanes.mapAll (Lane.clearedBy n c.clearances p) }
        reply := .ack (encList (fun q => u8 q.1 ++ u16 q.2) (s.overHeight n c p))
        tail := [.sectionState n .fault .atPosition (some p) none c.faultHeld .clearFault] } := by
  simp only [clearAt, State.onSection_notice (State.settleAt_get here p)]
  rw [State.settleAt_eq here, State.onSection, Table.modify_modify]
  rfl

/-- Settles O53. -/
theorem faultsAreRaisedAndCleared : Obligations.FaultsAreRaisedAndCleared := by
  refine ⟨fun s n c tables fitted working state spent => ?expiry, fun s f n o tables plan small out => ?out,
    fun s f n c o tables plan number fitted => ?clear⟩
  case expiry =>
    have here := (State.fittedSection_some fitted).2
    refine .of_event (x := s.onSection n (Sect.toFault .timeout)) ?_ rfl rfl
    show execMoveTimerExpiry n s = _
    simp only [execMoveTimerExpiry, fitted, working, state, spent, and_self, if_true, State.onSection_notice here]
    rfl
  case out =>
    exact .of_handle rfl o tables (sectionRequest_of_out (s := s.popMailbox .loading)
      (State.ne_profile_of_planMode plan) rfl (natOf_field_u8 small) out)
  case clear =>
    have here : (s.popMailbox .loading).sections.get n = some c := (State.fittedSection_some fitted).2
    have clears : handleClearFault .loading (u8 n) (s.popMailbox .loading) = clearSection (s.popMailbox .loading) n c :=
      sectionRequest_of_section (s := s.popMailbox .loading) (State.ne_profile_of_planMode plan) rfl
        (natOf_field_u8 (sectionNumberOk_small number)) number fitted
    refine ⟨fun state => .of_handle rfl o tables (clears.trans (clearSection_of_moving state)),
      fun state held => .of_handle rfl o tables (clears.trans (clearSection_of_held state held)),
      fun state free => .of_handle rfl o tables (clears.trans (clearSection_of_waiting state free)),
      fun state => .of_handle rfl o tables (clears.trans (clearSection_of_rest state)), fun state =>
        ⟨fun unplaced => .of_handle rfl o tables (clears.trans (clearSection_of_unplaced (s := s.popMailbox .loading)
            state unplaced)),
          fun p shown => ⟨fun x raised loaded => .of_handle rfl o tables (clears.trans (clearSection_of_loaded
            (s := s.popMailbox .loading) state shown raised loaded)), fun clear => ?_⟩⟩⟩
    intro low
    exact .of_taken rfl o (clears.trans ((clearSection_of_clear (s := s.popMailbox .loading) state shown clear).trans
      (clearAt_eq here p))) rfl rfl

end Sys2Proof.Machine

/-! Starts and the time base (spec/11 R165, R166; spec/04 R65, spec/06 R104, spec/08 R144, spec/09 R155). -/

namespace Sys2Proof.Machine

/-! What a start has made before its MODE notice -/

/-- What every start leaves, beside `Started`. -/
structure Afresh (s : State) (rates : BitVec 3) (u : State) : Prop where
  supplied : u.control.supplied = true
  resetInput : u.control.resetInput = false
  keyLocked : u.control.keyLocked = s.control.keyLocked
  rateStraps : u.control.rateStraps = rates
  down : u.control.down = false
  powerFailInput : u.control.powerFailInput = s.control.powerFailInput
  inputs : u.inputs = s.inputs
  pending : u.pending = s.pending
  revision : u.account.revision = 0
  tank : u.monitor.tank = none

theorem State.emptied_afresh (s : State) (rates : BitVec 3) : Afresh s rates (s.emptied rates) :=
  ⟨rfl, rfl, rfl, rfl, rfl, rfl, rfl, rfl, rfl, rfl⟩

/-- A warm start settles lanes and sections of what it has loaded. -/
theorem State.warmStart_cases (s : State) (rates : BitVec 3) :
    ∃ lanes sections, s.warmStart rates = { s.warmLoaded rates with lanes := lanes, sections := sections } := by
  rw [State.warmStart_eq, State.reviseFrom, State.warmSections_eq]
  exact ⟨_, _, rfl⟩

theorem State.warmStart_afresh (s : State) (rates : BitVec 3) : Afresh s rates (s.warmStart rates) := by
  obtain ⟨lanes, sections, e⟩ := s.warmStart_cases rates
  rw [e]
  exact ⟨rfl, rfl, rfl, rfl, rfl, rfl, rfl, rfl, rfl, rfl⟩

/-- The retained contents as a warm start brings them back, lanes, zones and sections apart (R166). -/
structure Reloaded (i : Image) (u : State) : Prop where
  isSealed : u.isSealed = i.isSealed
  gap : u.gap = i.gap
  segregation : u.segregation = i.segregation
  timeout : u.timeout = i.timeout
  clock : u.clock = i.clock
  ramps : u.ramps = i.ramps
  kp : u.account.kp = i.kp
  ks : u.account.ks = i.ks
  h : u.account.h = i.h
  kh : u.monitor.kh = i.kh
  offset : u.monitor.offset = i.offset
  tolerance : u.monitor.tolerance = i.tolerance
  stop : u.monitor.stop = i.stop
  register : u.register = i.register.map warmRecord

theorem State.warmStart_reloaded (s : State) (rates : BitVec 3) : Reloaded s.store.image (s.warmStart rates) := by
  obtain ⟨lanes, sections, e⟩ := s.warmStart_cases rates
  rw [e]
  exact ⟨rfl, rfl, rfl, rfl, rfl, rfl, rfl, rfl, rfl, rfl, rfl, rfl, rfl, rfl⟩

theorem warmRecord_by_state : warmRecord = fun r => if r.state = .reserved then { r with state := .check }
    else if r.state = .waiting then { r with state := .announced } else r := by
  funext r
  cases state : r.state <;> simp [warmRecord, state]

theorem State.started_cold {s : State} {strap : StartStrap} (rates : BitVec 3)
    (cold : strap = .cold ∨ s.store.intact = false) :
    s.started strap rates = (s.emptied rates, if strap = .cold then .cold else .coldAfterLoss) := by
  rcases cold with rfl | lost
  · rfl
  · cases strap <;> simp [State.started, lost]

theorem State.started_warm {s : State} (rates : BitVec 3) (intact : s.store.intact = true) :
    s.started .warm rates = (s.warmStart rates, .warm) := by
  simp [State.started, intact]

/-! The end of a start -/

/-- MODE sent, the image written, and POWER_DOWN entered where the power-fail input stands (R165, R168). -/
def State.startEnd (u : State) (n : Notice) : State :=
  if u.control.powerFailInput then (u.send n).commit.enterPowerDown else (u.send n).commit

theorem exec_start (strap : StartStrap) (rates : BitVec 3) (s : State) : exec (.start strap rates) s =
    .next ((s.started strap rates).1.startEnd ((s.started strap rates).1.modeNotice (s.started strap rates).2)) := rfl

theorem StationRow.blank_get (st : Station) : State.blank.stations.get st =
    { present := false, quiet := none, subscribed := defaultSubscriptions st } := by
  cases st <;> rfl

/-- A start changes nothing of what it has made but links, image, control, sections and monitor. -/
theorem State.startEnd_eq (u : State) (n : Notice) : u.startEnd n = { u with
    links := (u.send n).links, store := (u.startEnd n).store, control := (u.startEnd n).control
    sections := (u.startEnd n).sections, monitor := (u.startEnd n).monitor } := by
  unfold State.startEnd
  split <;> rfl

theorem State.startEnd_store (u : State) (n : Notice) :
    (u.startEnd n).store = { image := (u.startEnd n).image, intact := true } := by
  unfold State.startEnd
  split <;> rfl

theorem State.startEnd_control (u : State) (n : Notice) (down : u.control.down = false) :
    let c := (u.startEnd n).control
    c.supplied = u.control.supplied ∧ c.resetInput = u.control.resetInput ∧ c.keyLocked = u.control.keyLocked ∧
      c.rateStraps = u.control.rateStraps ∧ c.work = u.control.work ∧ c.down = u.control.powerFailInput := by
  unfold State.startEnd
  split
  case isTrue power => exact ⟨rfl, rfl, rfl, rfl, rfl, power.symm⟩
  case isFalse power => exact ⟨rfl, rfl, rfl, rfl, rfl, down.trans (Bool.eq_false_iff.mpr power).symm⟩

/-- POWER_DOWN discards samples and tank report; a start has left none (R78). -/
theorem State.startEnd_monitor {s u : State} {work : WorkMode} (started : Started s u work) (tank : u.monitor.tank = none)
    (n : Notice) : (u.startEnd n).monitor = u.monitor := by
  unfold State.startEnd
  split
  · obtain ⟨-, -, -, -, history, rail, qualified, divergence, -⟩ := started
    calc u.monitor.stopped = { u.monitor with
          tank := u.monitor.tank, history := u.monitor.history, rail := u.monitor.rail
          qualified := u.monitor.qualified, divergence := u.monitor.divergence } := by
          rw [tank, history, rail, qualified, divergence]
          rfl
      _ = u.monitor := rfl
  · rfl

theorem State.emptied_startEnd_image (s : State) (rates : BitVec 3) (n : Notice) :
    ((s.emptied rates).startEnd n).image = Image.cold := by
  unfold State.startEnd
  split <;> rfl

/-- The one MODE frame that a link of the started controller carries. -/
theorem State.startEnd_link {s u : State} {work : WorkMode} (started : Started s u work) {o : Station}
    (link : u.links.get o = Link.atStart (s.links.get o).readyInput) (m : Mode) (cause : ModeCause) :
    (u.startEnd (.mode m cause)).links.get o =
      { Link.atStart (s.links.get o).readyInput with queue := [noticeFrame .mode 1 (Notice.mode m cause).content] } := by
  have goes : (Notice.mode m cause).goesTo u.stations o = true := by
    rw [started.stations]
    cases o <;> rfl
  rw [State.startEnd_eq]
  simp only [State.send, PerStation.get_of, goes, if_true, link]
  rfl

/-- A start ends in the fields it has made (R165). -/
theorem startEnd_fresh {s u : State} {rates : BitVec 3} {work : WorkMode} (started : Started s u work)
    (afresh : Afresh s rates u) (n : Notice) :
    let t := u.startEnd n
    t.control.supplied = true ∧ t.control.resetInput = false ∧ t.control.keyLocked = s.control.keyLocked ∧
      t.control.rateStraps = rates ∧ t.control.down = s.control.powerFailInput ∧ t.inputs = s.inputs ∧
      t.pending = s.pending ∧ t.movements = [] ∧ t.waiting = [] ∧ t.seqNext = 1 ∧ t.account.revision = 0 ∧
      t.monitor.tank = none ∧ t.monitor.history = [] ∧ t.monitor.rail = 0 ∧ t.monitor.qualified = 0 ∧
      t.monitor.divergence = 0 ∧
      (∀ st, t.stations.get st = { present := false, quiet := none, subscribed := defaultSubscriptions st }) ∧
      t.store = { image := t.image, intact := true } := by
  intro t
  obtain ⟨supplied, reset, key, straps, -, down⟩ := u.startEnd_control n afresh.down
  have monitor : t.monitor = u.monitor := State.startEnd_monitor started afresh.tank n
  have rest := u.startEnd_eq n
  refine ⟨supplied.trans afresh.supplied, reset.trans afresh.resetInput, key.trans afresh.keyLocked,
    straps.trans afresh.rateStraps, down.trans afresh.powerFailInput, ?_, ?_, ?_, ?_, ?_, ?_,
    monitor ▸ afresh.tank, monitor ▸ started.history, monitor ▸ started.rail, monitor ▸ started.qualified,
    monitor ▸ started.divergence, ?_, u.startEnd_store n⟩
  · exact (congrArg State.inputs rest).trans afresh.inputs
  · exact (congrArg State.pending rest).trans afresh.pending
  · exact (congrArg State.movements rest).trans started.movements
  · exact (congrArg State.waiting rest).trans started.waiting
  · exact (congrArg State.seqNext rest).trans started.seqNext
  · exact (congrArg (·.account.revision) rest).trans afresh.revision
  · intro st
    have stations := congrArg State.stations rest
    rw [show t.stations = u.stations from stations, started.stations, StationRow.blank_get]

theorem startEnd_reloaded {s u : State} {rates : BitVec 3} {work : WorkMode} {i : Image} (started : Started s u work)
    (afresh : Afresh s rates u) (reloaded : Reloaded i u) (n : Notice) : Reloaded i (u.startEnd n) := by
  have monitor := State.startEnd_monitor started afresh.tank n
  have rest := u.startEnd_eq n
  obtain ⟨isSealed, gap, segregation, timeout, clock, ramps, kp, ks, h, kh, offset, tolerance, stop, register⟩ := reloaded
  exact ⟨(congrArg State.isSealed rest).trans isSealed, (congrArg State.gap rest).trans gap,
    (congrArg State.segregation rest).trans segregation, (congrArg State.timeout rest).trans timeout,
    (congrArg State.clock rest).trans clock, (congrArg State.ramps rest).trans ramps,
    (congrArg (·.account.kp) rest).trans kp, (congrArg (·.account.ks) rest).trans ks,
    (congrArg (·.account.h) rest).trans h, (congrArg (·.kh) monitor).trans kh, (congrArg (·.offset) monitor).trans offset,
    (congrArg (·.tolerance) monitor).trans tolerance, (congrArg (·.stop) monitor).trans stop,
    (congrArg State.register rest).trans register⟩

theorem execTimeBaseSecond_eq {s : State} (working : s.working = true) : exec .timeBaseSecond s = .next
    { s with
      stations := PerStation.of fun st => (s.stations.get st).second
      monitor := { s.monitor with tank := s.monitor.tank.map TankReport.second }
      movements := if s.mode = .run then s.movements.map Reservation.second else s.movements
      sections := if s.planMode then s.sections.mapAll Sect.second else s.sections } :=
  if_pos working

/-- Settles O55: a start ends in the emptied or the reloaded controller with the MODE notice on every link. -/
theorem startsAndSecondsPass : Obligations.StartsAndSecondsPass := by
  refine ⟨fun s strap rates tables => ⟨_, exec_start strap rates s, ?_⟩,
    fun s working => execTimeBaseSecond_eq working⟩
  have links := started_links s strap rates
  by_cases cold : strap = .cold ∨ s.store.intact = false
  · have reached := State.started_cold rates cold
    have started := s.emptied_started rates
    have afresh := s.emptied_afresh rates
    rw [reached] at links ⊢
    obtain ⟨supplied, reset, key, straps, down, inputs, pending, movements, waiting, seqNext, revision, tank, history, rail,
      qualified, divergence, stations, store⟩ := startEnd_fresh started afresh
        ((s.emptied rates).modeNotice (if strap = .cold then .cold else .coldAfterLoss))
    refine ⟨supplied, reset, key, straps, down, inputs, pending, movements, waiting, seqNext, revision, tank, history, rail,
      qualified, divergence, stations, store, fun _ => ⟨?_, s.emptied_startEnd_image rates _, fun st => ?_⟩,
      fun warm intact => ?_⟩
    · obtain ⟨-, -, -, -, work, -⟩ := (s.emptied rates).startEnd_control _ afresh.down
      exact work.trans started.work
    · exact State.startEnd_link started (links st) _ _
    · rcases cold with rfl | lost
      · cases warm
      · rw [intact] at lost
        cases lost
  · obtain ⟨warm, intact⟩ : strap = .warm ∧ s.store.intact = true := by
      cases strap <;> simp_all
    subst warm
    have reached := State.started_warm rates intact
    have started := s.warmStart_started rates
    have afresh := s.warmStart_afresh rates
    have mode : (s.warmStart rates).modeNotice .warm =
        .mode (if s.store.image.isSealed then .recovery else .profile) .warm := by
      rw [State.modeNotice, State.mode, afresh.down, started.work]
      cases s.store.image.isSealed <;> rfl
    rw [reached] at links ⊢
    dsimp only
    rw [mode]
    obtain ⟨supplied, reset, key, straps, down, inputs, pending, movements, waiting, seqNext, revision, tank, history, rail,
      qualified, divergence, stations, store⟩ := startEnd_fresh started afresh
        (.mode (if s.store.image.isSealed then .recovery else .profile) .warm)
    obtain ⟨-, -, -, -, work, -⟩ := (s.warmStart rates).startEnd_control
      (.mode (if s.store.image.isSealed then .recovery else .profile) .warm) afresh.down
    have back := startEnd_reloaded started afresh (s.warmStart_reloaded rates)
      (.mode (if s.store.image.isSealed then .recovery else .profile) .warm)
    refine ⟨supplied, reset, key, straps, down, inputs, pending, movements, waiting, seqNext, revision, tank, history, rail,
      qualified, divergence, stations, store, fun lost => absurd lost cold, fun _ _ => ⟨work.trans started.work,
        back.isSealed, back.gap, back.segregation, back.timeout, back.clock, back.ramps, back.kp, back.ks, back.h, back.kh,
        back.offset, back.tolerance, back.stop, ?_, fun st => State.startEnd_link started (links st) _ _⟩⟩
    rw [back.register, warmRecord_by_state]

end Sys2Proof.Machine

/-! Modes (spec/11 R165 to R168): RESUME, the key, the reset input, power-fail, the resumption and the loss of
supply. At the resumption the line-ready inputs are read station by station and the sections compared one by one; both
come to one change of the whole state. -/

namespace Sys2Proof.Machine

/-! A station that becomes ABSENT (R155) -/

/-- A station ABSENT, its quiet timer stopped. -/
def State.withoutStation (s : State) (st : Station) : State :=
  s.setStation st { s.stations.get st with present := false, quiet := none }

theorem State.makeAbsent_eq (s : State) (st : Station) (cause : PresenceCause) : s.makeAbsent st cause =
    (s.withoutStation st, if (s.stations.get st).present then
      .stationPresence st false cause :: if st = .loading then (s.withoutStation st).overshoot true else [] else []) := by
  cases present : (s.stations.get st).present with
  | true =>
    simp only [State.makeAbsent, present, if_true, State.changePresence, State.withoutStation, Bool.false_eq_true,
      if_false, List.append_nil]
    split_ifs <;> rfl
  | false =>
    simp only [State.makeAbsent, present, Bool.false_eq_true, if_false, State.withoutStation]

/-! Line-ready read again (R150, R155) -/

/-- The line-ready state stands and the input has fallen. -/
def State.readyFallen (s : State) (st : Station) : Bool := (s.links.get st).ready && !(s.links.get st).readyInput

/-- A station's row once its line-ready input is read. -/
def State.rereadRow (s : State) (st : Station) : StationRow :=
  if s.readyFallen st then { s.stations.get st with present := false, quiet := none } else s.stations.get st

/-- One station's line-ready input read. -/
def State.reread (s : State) (st : Station) : State :=
  { s with
    stations := s.stations.set st (s.rereadRow st)
    links := s.links.set st { s.links.get st with ready := (s.links.get st).readyInput } }

def State.rereadNotices (s : State) (st : Station) : List Notice :=
  if s.readyFallen st && (s.stations.get st).present then
    .stationPresence st false .lineReady :: if st = .loading then (s.reread st).overshoot true else []
  else []

theorem PerStation.set_get {α : Type} (p : PerStation α) (st : Station) : p.set st (p.get st) = p := by
  cases st <;> rfl

section
variable {s : State} {st : Station}

theorem State.reread_of_same (same : (s.links.get st).ready = (s.links.get st).readyInput) :
    s.reread st = s ∧ s.rereadNotices st = [] := by
  have stands : s.readyFallen st = false := by simp [State.readyFallen, same]
  have link : ({ s.links.get st with ready := (s.links.get st).readyInput } : Link) = s.links.get st := by rw [← same]
  refine ⟨?_, by simp [State.rereadNotices, stands]⟩
  simp only [State.reread, State.rereadRow, stands, Bool.false_eq_true, if_false, link, PerStation.set_get]

theorem State.takeReady_of_risen (level : (s.links.get st).readyInput = true) :
    s.takeReady st true = (s.reread st, s.rereadNotices st) := by
  have stands : s.readyFallen st = false := by simp [State.readyFallen, level]
  simp [State.takeReady, State.setLink, State.reread, State.rereadRow, State.rereadNotices, stands, level,
    PerStation.set_get]

theorem State.takeReady_of_fallen (ready : (s.links.get st).ready = true) (level : (s.links.get st).readyInput = false) :
    s.takeReady st false = (s.reread st, s.rereadNotices st) := by
  have fallen : s.readyFallen st = true := by simp [State.readyFallen, ready, level]
  have taken : s.reread st = (s.setLink st { s.links.get st with ready := false }).withoutStation st := by
    simp [State.reread, State.rereadRow, fallen, level, State.setLink, State.withoutStation, State.setStation]
  rw [State.takeReady, if_neg Bool.false_ne_true, State.makeAbsent_eq, State.rereadNotices, taken, fallen]
  rfl

end

theorem State.rereadReady_nil (s : State) : s.rereadReady [] = (s, []) := rfl

theorem State.rereadReady_cons (s : State) (st : Station) (rest : List Station) : s.rereadReady (st :: rest) =
    (((s.reread st).rereadReady rest).1, s.rereadNotices st ++ ((s.reread st).rereadReady rest).2) := by
  have one : (if (s.links.get st).ready = (s.links.get st).readyInput then (s, [])
      else s.takeReady st (s.links.get st).readyInput) = (s.reread st, s.rereadNotices st) := by
    split
    case isTrue same =>
      obtain ⟨unchanged, silent⟩ := State.reread_of_same same
      rw [unchanged, silent]
    case isFalse changed =>
      cases level : (s.links.get st).readyInput with
      | true => exact State.takeReady_of_risen level
      | false =>
        rw [level] at changed
        exact State.takeReady_of_fallen (Bool.not_eq_false _ ▸ changed) level
  simp only [State.rereadReady, one]

/-- Every line-ready input read: each station's row and link by themselves. -/
theorem State.rereadReady_all (s : State) : s.rereadReady allStations =
    ({ s with
        stations := PerStation.of s.rereadRow
        links := PerStation.of fun st => { s.links.get st with ready := (s.links.get st).readyInput } },
      allStations.flatMap fun st =>
        if s.readyFallen st && (s.stations.get st).present then
          .stationPresence st false .lineReady :: if st = .loading then
            State.overshoot { s with
              stations := PerStation.of s.rereadRow
              links := PerStation.of fun st => { s.links.get st with ready := (s.links.get st).readyInput } } true
            else []
        else []) := by
  simp only [allStations, State.rereadReady_cons, State.rereadReady_nil, List.flatMap_cons, List.flatMap_nil]
  rfl

/-! The sections compared with their inputs (R148) -/

/-- Two tables with the same numbers, each once, and the same records are one. -/
theorem Table.ext_of_get {α : Type} {a b : Table α} (numbers : a.map (·.1) = b.map (·.1)) (once : (a.map (·.1)).Nodup)
    (same : ∀ n, a.get n = b.get n) : a = b := by
  induction a generalizing b with
  | nil => exact (List.map_eq_nil_iff.mp numbers.symm).symm
  | cons p a ih =>
    obtain ⟨k, v⟩ := p
    cases b with
    | nil => cases numbers
    | cons q b =>
      obtain ⟨m, w⟩ := q
      simp only [List.map_cons, List.cons.injEq, List.nodup_cons] at numbers once
      obtain ⟨rfl, numbers⟩ := numbers
      have first : v = w := by simpa using same k
      have later : a = b := ih numbers once.2 fun n => by
        by_cases e : k = n
        · have absent {t : Table α} (h : k ∉ t.map (·.1)) : t.get k = none :=
            Option.not_isSome_iff_eq_none.mp fun found => h ((Table.get_isSome_iff t k).mp found)
          rw [← e, absent once.1, absent (numbers ▸ once.1)]
        · simpa [e] using same n
      rw [first, later]

/-- One section compared: the spec's reading of R148 at its number, the others as they were. -/
theorem State.compared_get {s : State} {n : Nat} {c : Sect} (here : s.sections.get n = some c) (m : Nat) :
    (if c.holds then s.compareInputs n c else s).sections.get m =
      if m = n then some (s.resumedSection n c) else s.sections.get m := by
  have fault := State.sensorFault_get (sensorCause (s.sectionInputs n)) here m
  have unchanged : s.sections.get m = if m = n then some c else s.sections.get m := by
    split
    · rename_i e; rw [e, here]
    · rfl
  by_cases rests : c.state = .moving ∨ c.state = .fault
  · have free : c.holds = false := by rcases rests with e | e <;> simp [Sect.holds, e]
    have same : s.resumedSection n c = c := if_pos (rests.imp_right .inl)
    simpa [free, same] using unchanged
  · obtain ⟨still, sound⟩ := not_or.mp rests
    have holds : c.holds = true := by
      cases e : c.state
      case moving => exact absurd e still
      case fault => exact absurd e sound
      all_goals simp [Sect.holds, e]
    rw [if_pos holds, State.compareInputs]
    by_cases agrees : s.inputsAgree n c = true
    · have same : s.resumedSection n c = c := by
        simp only [State.inputsAgree, Bool.or_eq_true, Bool.and_eq_true, decide_eq_true_eq] at agrees
        exact if_pos (.inr (.inr agrees))
      rw [if_pos agrees, same]
      exact unchanged
    · have taken : s.resumedSection n c =
          if s.pendingLanes n = [] then c.faulted (sensorCause (s.sectionInputs n))
          else c.holding (sensorCause (s.sectionInputs n)) := by
        simp only [State.inputsAgree, Bool.or_eq_true, Bool.and_eq_true, decide_eq_true_eq] at agrees
        exact if_neg fun h => h.elim still fun h => h.elim sound agrees
      rw [if_neg agrees, taken]
      exact fault

theorem State.compareInputs_eq (s : State) (n : Nat) (c : Sect) :
    s.compareInputs n c = { s with sections := (s.compareInputs n c).sections } := by
  unfold State.compareInputs
  split
  · rfl
  · exact State.sensorFault_eq ..

theorem State.compareInputs_numbers (s : State) (n : Nat) (c : Sect) :
    (s.compareInputs n c).sections.map (·.1) = s.sections.map (·.1) := by
  unfold State.compareInputs
  split
  · rfl
  · exact State.sensorFault_numbers ..

/-- What the resumption makes of a section. -/
def State.afterResumption (s : State) (n : Nat) (c : Sect) : Sect :=
  if s.isSealed = true ∧ s.planMode = true then s.resumedSection n c else c

/-- One section of the resumption, by its number. -/
def State.recheck (s : State) (n : Nat) : State :=
  match s.fittedSection n with
  | some c => if s.planMode ∧ c.holds then s.compareInputs n c else s
  | none => s

theorem State.recheck_eq (s : State) (n : Nat) :
    s.recheck n = { s with sections := (s.recheck n).sections } := by
  unfold State.recheck
  split
  · split
    · exact State.compareInputs_eq ..
    · rfl
  · rfl

theorem State.recheck_numbers (s : State) (n : Nat) : (s.recheck n).sections.map (·.1) = s.sections.map (·.1) := by
  unfold State.recheck
  split
  · split
    · exact State.compareInputs_numbers ..
    · rfl
  · rfl

theorem State.recheck_get (s : State) (n m : Nat) : (s.recheck n).sections.get m =
    if m = n then (s.sections.get m).map (s.afterResumption n) else s.sections.get m := by
  unfold State.recheck State.fittedSection
  by_cases sealed : s.isSealed = true
  · rw [if_pos sealed]
    cases here : s.sections.get n with
    | none => by_cases e : m = n <;> simp [e, here]
    | some c =>
      by_cases plan : s.planMode = true
      · have get := State.compared_get here m
        simp only [plan, true_and] at get ⊢
        rw [get]
        by_cases e : m = n <;> simp [e, here, State.afterResumption, sealed, plan]
      · by_cases e : m = n <;> simp [e, here, State.afterResumption, plan]
  · by_cases e : m = n <;> cases here : s.sections.get n <;> simp [e, here, State.afterResumption, sealed]

theorem State.recheckSections_cons (s : State) (n : Nat) (rest : List Nat) :
    s.recheckSections (n :: rest) = (s.recheck n).recheckSections rest := rfl

theorem State.recheckSections_eq (ns : List Nat) (s : State) :
    s.recheckSections ns = { s with sections := (s.recheckSections ns).sections } := by
  induction ns generalizing s with
  | nil => rfl
  | cons n rest ih =>
    rw [State.recheckSections_cons, ih, State.recheck_eq]

theorem State.recheckSections_numbers (ns : List Nat) (s : State) :
    (s.recheckSections ns).sections.map (·.1) = s.sections.map (·.1) := by
  induction ns generalizing s with
  | nil => rfl
  | cons n rest ih => rw [State.recheckSections_cons, ih, State.recheck_numbers]

theorem State.recheckSections_get {ns : List Nat} (once : ns.Nodup) (s : State) (m : Nat) :
    (s.recheckSections ns).sections.get m =
      if m ∈ ns then (s.sections.get m).map (s.afterResumption m) else s.sections.get m := by
  induction ns generalizing s with
  | nil => rfl
  | cons n rest ih =>
    obtain ⟨fresh, once⟩ := List.nodup_cons.mp once
    rw [State.recheckSections_cons, ih once, s.recheck_get n m]
    by_cases e : m = n
    · subst e
      simp [fresh]
    · have same : (s.recheck n).afterResumption m = s.afterResumption m := funext fun c => by
        rw [s.recheck_eq n]
        rfl
      simp [e, same]

/-- The sections after the resumption, each by its number. -/
theorem State.recheckSections_all {s : State} (tables : s.tablesOk = true) :
    s.recheckSections (s.sections.map (·.1)) =
      { s with sections := s.sections.map fun p => (p.1, s.afterResumption p.1 p.2) } := by
  have wf := (State.wf_of_tablesOk tables).2.2.2
  have once := Table.numbers_nodup wf
  rw [State.recheckSections_eq]
  congr 1
  refine Table.ext_of_get ?_ (by rw [State.recheckSections_numbers]; exact once) fun n => ?_
  · rw [State.recheckSections_numbers, List.map_map]
    rfl
  · rw [State.recheckSections_get once, Table.get_mapWith s.sections (fun p => s.afterResumption p.1 p.2) n]
    split
    case isTrue => rfl
    case isFalse absent =>
      have none_ : s.sections.get n = none :=
        Option.not_isSome_iff_eq_none.mp fun found => absent ((Table.get_isSome_iff _ n).mp found)
      rw [none_]
      rfl

/-! The resumption -/

/-- The state resumed, its sections still as they were. -/
def State.woken (s : State) : State :=
  { s with
    control := { s.control with down := false, powerFailInput := false, statesBefore := [] }
    stations := PerStation.of s.rereadRow
    links := PerStation.of fun st => { s.links.get st with ready := (s.links.get st).readyInput } }

def State.resumptionNotices (s : State) : List Notice :=
  allStations.flatMap fun st =>
    if s.readyFallen st && (s.stations.get st).present then
      .stationPresence st false .lineReady :: if st = .loading then s.woken.overshoot true else []
    else []

theorem State.resumed_eq {s : State} (tables : s.tablesOk = true) : s.resumed =
    ({ s.woken with sections := s.sections.map fun p => (p.1, s.woken.afterResumption p.1 p.2) },
      s.resumptionNotices) := by
  rw [State.resumed, State.rereadReady_all]
  exact congrArg (·, s.resumptionNotices) (State.recheckSections_all (s := s.woken) tables)

/-- The report of a section at the resumption (R148). -/
theorem resumptionNotices_eq {s t : State} {after : Nat → Sect → Sect} (tables : s.tablesOk = true)
    (sections : t.sections = s.sections.map fun p => (p.1, after p.1 p.2)) :
    (s.sections.map (·.1)).flatMap (resumptionNotice s t) = s.sections.flatMap fun p =>
      if (s.control.statesBefore.get p.1).getD p.2.state ≠ (after p.1 p.2).state ∨
          p.2.faultHeld ≠ (after p.1 p.2).faultHeld then
        [.sectionState p.1 ((s.control.statesBefore.get p.1).getD p.2.state) (after p.1 p.2).state
          (after p.1 p.2).position (after p.1 p.2).target (after p.1 p.2).faultHeld
          (.fault ((after p.1 p.2).cause.getD .powerDown))]
      else [] := by
  rw [List.flatMap_map]
  refine List.flatMap_congr fun p mem => ?_
  obtain ⟨n, c⟩ := p
  have before : s.sections.get n = some c := (Table.mem_iff_get (State.wf_of_tablesOk tables).2.2.2 n c).mp mem
  have now : t.sections.get n = some (after n c) := by
    rw [sections, Table.get_mapWith s.sections (fun p => after p.1 p.2) n, before]
    rfl
  simp only [resumptionNotice, before, now, State.sectionNotice]

theorem exec_powerRestored {s : State} (awake : s.awake = true) (down : s.control.down = true) {t : State}
    {ns : List Notice} (resumed : s.resumed = (t, ns)) : exec .powerRestored s =
      t.event s (t.modeNotice .powerRestored :: ns) ((s.sections.map (·.1)).flatMap (resumptionNotice s t)) := by
  show execPowerRestored s = _
  simp only [execPowerRestored, awake, down, and_self, if_true, resumed]

/-! The other modes -/

theorem handleResume_of_run {s : State} (mode : s.mode = .run) : handleResume .loading [] s = acknowledge s [] := by
  simp [handleResume, mode]

theorem handleResume_of_recovery {s : State} (mode : s.mode = .recovery) : handleResume .loading [] s =
    { state := { s with control := { s.control with work := .run } }, reply := .ack [], head := [.mode .run .resume] } := by
  simp [handleResume, mode]

theorem execPowerFail_of_idle {s : State} (idle : s.working = false) :
    exec .powerFail s = .next { s with control := { s.control with powerFailInput := true } } := by
  show execPowerFail s = _
  rw [execPowerFail, idle]
  rfl

theorem execPowerFail_of_working {s : State} (working : s.working = true) :
    exec .powerFail s = .next (s.setPowerFail true).enterPowerDown := if_pos working

theorem execPowerRestored_of_idle {s : State} (idle : s.awake = false ∨ s.control.down = false) :
    exec .powerRestored s = .next { s with control := { s.control with powerFailInput := false } } := by
  show execPowerRestored s = _
  rcases idle with h | h <;> simp [execPowerRestored, h, State.setPowerFail]

/-- Settles O54. -/
theorem modesChangeAsCommanded : Obligations.ModesChangeAsCommanded := by
  refine ⟨fun s f o tables => ⟨fun run => ?_, fun recovery => ?_⟩, fun s locked => rfl, fun s => rfl,
    fun s idle => execPowerFail_of_idle idle, fun s working => ⟨rfl, execPowerFail_of_working working⟩,
    fun s idle => execPowerRestored_of_idle idle, fun s awake down tables => ?_, fun s cutOff => ?_⟩
  · exact .of_handle rfl o tables (handleResume_of_run (s := s.popMailbox .loading) run)
  · exact .of_taken rfl o (handleResume_of_recovery (s := s.popMailbox .loading) recovery) rfl rfl
  · intro fallen up after before
    refine EndsFrom.of_event ((exec_powerRestored awake down (State.resumed_eq tables)).trans ?_)
    rw [resumptionNotices_eq tables rfl]
    rfl
  · intro lost
    exact ⟨rfl, rfl, rfl, rfl, rfl, rfl, fun st => by cases st <;> exact ⟨rfl, rfl, rfl⟩⟩

end Sys2Proof.Machine

/-! Links (spec/09 R150, R151, R153 to R155): frames in and out, breaks, LINK_RESET, line-ready and the quiet limit. -/

namespace Sys2Proof.Machine

theorem PerStation.set_set {α : Type} (p : PerStation α) (st : Station) (a b : α) : (p.set st a).set st b = p.set st b := by
  cases st <;> rfl

theorem State.changePresence_absent {s : State} {st : Station} (present : (s.stations.get st).present = true)
    (cause : PresenceCause) : s.changePresence st false none cause =
      (s.withoutStation st, .stationPresence st false cause ::
        if st = .loading then (s.withoutStation st).overshoot true else []) := by
  have absent := s.makeAbsent_eq st cause
  rwa [State.makeAbsent, if_pos present, if_pos present] at absent

/-- What a link keeps of a reset (R154). -/
def Link.afterReset (l : Link) : Link :=
  { l with
    mailbox := [], queue := [], slots := []
    receiver := if l.receiver = .inBreak then .inBreak else .hunting }

theorem State.resetLink_eq (s : State) (st : Station) : s.resetLink st =
    (s.setLink st (s.links.get st).afterReset |>.withoutStation st, if (s.stations.get st).present then
      .stationPresence st false .reset :: if st = .loading then (s.withoutStation st).overshoot true else [] else []) := by
  have taken : s.resetLink st = (s.setLink st (s.links.get st).afterReset).makeAbsent st .reset := by
    cases receiver : (s.links.get st).receiver <;> simp [State.resetLink, Link.afterReset, receiver]
  rw [taken, State.makeAbsent_eq]
  rfl

/-! Breaks, line-ready and the quiet limit -/

section
variable {s : State} {st : Station}

theorem exec_lineBreak (working : s.working = true) (ready : (s.links.get st).ready = true)
    (clear : (s.links.get st).receiver ≠ .inBreak) : exec (.lineBreak st) s =
      ((s.withoutStation st).setLink st
          { s.links.get st with mailbox := [], queue := [], slots := [], receiver := .inBreak }).event s
        (if (s.stations.get st).present then
          .stationPresence st false .reset :: if st = .loading then (s.withoutStation st).overshoot true else [] else [])
        [] := by
  show execLineBreak st s = _
  have live : s.linkLive st = true := by simp [State.linkLive, working, ready]
  have emptied : ((s.setLink st (s.links.get st).afterReset).withoutStation st).setReceiver st .inBreak =
      (s.withoutStation st).setLink st
        { s.links.get st with mailbox := [], queue := [], slots := [], receiver := .inBreak } := by
    simp [State.setReceiver, State.setLink, State.withoutStation, State.setStation, PerStation.set_set, Link.afterReset]
  rw [execLineBreak, if_pos ⟨live, clear⟩, State.resetLink_eq]
  dsimp only
  rw [emptied]

theorem exec_lineReadyChange_of_fallen (working : s.working = true) (ready : (s.links.get st).ready = true) :
    exec (.lineReadyChange st false) s =
      ((s.withoutStation st).setLink st { s.links.get st with ready := false, readyInput := false }).event s
        (if (s.stations.get st).present then
          .stationPresence st false .lineReady :: if st = .loading then (s.withoutStation st).overshoot true else [] else [])
        [] := by
  show execLineReadyChange st false s = _
  have taken : ((s.setLink st { s.links.get st with readyInput := false }).setLink st
      { (s.setLink st { s.links.get st with readyInput := false }).links.get st with ready := false }).withoutStation st =
      (s.withoutStation st).setLink st { s.links.get st with ready := false, readyInput := false } := by
    simp [State.setLink, State.withoutStation, State.setStation, PerStation.set_set]
  rw [execLineReadyChange]
  dsimp only
  rw [if_pos ⟨working, by simp [ready]⟩, State.takeReady, if_neg Bool.false_ne_true, State.makeAbsent_eq]
  dsimp only
  rw [taken]
  rfl

theorem exec_lineReadyChange_of_risen (tables : s.tablesOk = true) (working : s.working = true)
    (down : (s.links.get st).ready = false) : exec (.lineReadyChange st true) s =
      .next ((s.setLink st { s.links.get st with ready := true, readyInput := true }).endedWith []) := by
  show execLineReadyChange st true s = _
  have taken : (s.setLink st { s.links.get st with readyInput := true }).setLink st
      { (s.setLink st { s.links.get st with readyInput := true }).links.get st with ready := true } =
      s.setLink st { s.links.get st with ready := true, readyInput := true } := by
    simp [State.setLink, PerStation.set_set]
  rw [execLineReadyChange]
  dsimp only
  rw [if_pos ⟨working, by simp [down]⟩, State.takeReady, if_pos rfl, taken]
  exact State.event_quiet (t := s.setLink st { s.links.get st with ready := true, readyInput := true }) tables
    ⟨rfl, rfl, rfl, rfl, rfl, rfl, rfl⟩ []

theorem exec_lineReadyChange_of_idle {asserted : Bool} (idle : s.working = false ∨ (s.links.get st).ready = asserted) :
    exec (.lineReadyChange st asserted) s = .next (s.setLink st { s.links.get st with readyInput := asserted }) := by
  show execLineReadyChange st asserted s = _
  refine if_neg fun h => idle.elim (fun still => ?_) h.2
  rw [still] at h
  exact absurd h.1 Bool.false_ne_true

theorem exec_quietLimit (working : s.working = true) (present : (s.stations.get st).present = true) {q : Nat}
    (quiet : (s.stations.get st).quiet = some q) (due : 10 ≤ q) : exec (.quietLimit st) s =
      (s.withoutStation st).event s (.stationPresence st false .quiet ::
        if st = .loading then (s.withoutStation st).overshoot true else []) [] := by
  show execQuietLimit st s = _
  have reached : Config.quietLimit ≤ q := due
  have spent : (s.stations.get st).quietDue = true := by simp [StationRow.quietDue, quiet, present, reached]
  rw [execQuietLimit, if_pos ⟨working, spent⟩, State.changePresence_absent present]

/-! LINK_RESET -/

theorem handleLinkReset_of_out {n : Nat} (small : n < 256) (out : n < 2 ∨ 6 < n) :
    handleLinkReset .loading (u8 n) s = refuseAt s 1 := by
  have unknown : resettable n = none := by
    rw [resettable]
    split_ifs
    · rfl
    · refine List.find?_eq_none.mpr fun st _ => ?_
      cases st <;> simp only [stationNumber, beq_iff_eq] <;> omega
  have length : (u8 n).length = 1 := rfl
  simp [handleLinkReset, natOf_field_u8 small, length, unknown]

theorem handleLinkReset_of_station {n : Nat} (small : n < 256) (names : stationOf n = some st) (other : st ≠ .loading) :
    handleLinkReset .loading (u8 n) s =
      { state := (s.setLink st (s.links.get st).afterReset).withoutStation st
        reply := .ack (u8 n ++ u8 (if (s.stations.get st).present then 1 else 2))
        head := if (s.stations.get st).present then [.stationPresence st false .reset] else [] } := by
  have resets : resettable n = some st := by
    rw [resettable, if_neg ?_, names]
    rintro rfl
    exact other (Option.some.inj names).symm
  have length : (u8 n).length = 1 := rfl
  have flag : flagCode (s.stations.get st).present = if (s.stations.get st).present then 1 else 2 := by
    cases (s.stations.get st).present <;> rfl
  simp [handleLinkReset, natOf_field_u8 small, length, resets, State.resetLink_eq, other, flag]

end

/-- Settles O57. -/
theorem linksAreResetAndWatched : Obligations.LinksAreResetAndWatched := by
  refine ⟨fun st s tables working => ?_, fun st s asserted idle => exec_lineReadyChange_of_idle idle,
    fun s f n o tables small => ⟨fun out => ?_, fun st names other => ?_⟩⟩
  · intro absent notices
    exact ⟨fun ready clear => .of_event (exec_lineBreak working ready clear),
      fun ready => .of_event (exec_lineReadyChange_of_fallen working ready),
      exec_lineReadyChange_of_risen tables working, fun q present quiet due => .of_event
        ((exec_quietLimit working present quiet due).trans (by rw [show notices .quiet = _ from if_pos present]; rfl))⟩
  · exact .of_handle rfl o tables (handleLinkReset_of_out small out)
  · intro l emptied
    have same : (s.popMailbox .loading).links.get st = l := PerStation.get_set_of_ne _ _ other
    have heff : emptied.heff = s.heff := by
      have first : (emptied.stations).loading = s.stations.loading :=
        PerStation.get_set_of_ne s.stations (o := .loading) _ other.symm
      rw [State.heff, first]
      rfl
    refine State.takeKind_quiet o handleLinkReset ((handleLinkReset_of_station (s := s.popMailbox .loading) small names
      other).trans ?_) tables ⟨rfl, rfl, rfl, rfl, rfl, heff, rfl⟩
    rw [same]
    rfl

end Sys2Proof.Machine

/-! Frames in and out (spec/09 R151, R153, R155; the plan-lock key, spec/11 R167). -/

namespace Sys2Proof.Machine

/-! A frame gathered -/

theorem State.setReceiver_of_hunting {s : State} {st : Station} (hunting : (s.links.get st).receiver = .hunting) :
    s.setReceiver st .hunting = s := by
  rw [State.setReceiver, ← hunting, State.setLink, PerStation.set_get]

section
variable {s : State} {st : Station}

theorem execFrameReceived_of_dead (dead : s.linkLive st = false) (bytes : List Byte) :
    exec (.frameReceived st bytes) s = .next s := by
  show execFrameReceived st bytes s = _
  rw [execFrameReceived, dead]
  rfl

variable (hunting : (s.links.get st).receiver = .hunting) {bytes : List Byte}
include hunting

theorem execFrameReceived_of_noise (noise : gather .hunting bytes = (.hunting, [])) :
    exec (.frameReceived st bytes) s = .next s := by
  cases live : s.linkLive st with
  | false => exact execFrameReceived_of_dead live bytes
  | true =>
    show execFrameReceived st bytes s = _
    simp [execFrameReceived, live, hunting, noise, State.setReceiver_of_hunting hunting]

theorem execFrameReceived_of_gathered (live : s.linkLive st = true) (gathered : gather .hunting bytes = (.hunting, [bytes])) :
    exec (.frameReceived st bytes) s = .next (s.frameGathered st bytes) := by
  show execFrameReceived st bytes s = _
  simp [execFrameReceived, live, hunting, gathered, State.setReceiver_of_hunting hunting]

theorem execFrameReceived_of_invalid (gathered : gather .hunting bytes = (.hunting, [bytes]))
    (invalid : validFrame st bytes = none) : exec (.frameReceived st bytes) s = .next s := by
  cases live : s.linkLive st with
  | false => exact execFrameReceived_of_dead live bytes
  | true =>
    rw [execFrameReceived_of_gathered hunting live gathered, State.frameGathered, invalid]

theorem execFrameReceived_of_frame (live : s.linkLive st = true) {f : Frame} (short : f.payload.length ≤ 100) {t : State}
    {head : List Notice} (heard : s.hear st = (t, head)) : exec (.frameReceived st (wireBytes st f)) s =
      (t.setLink st ((t.links.get st).post f)).event s head [] := by
  rw [execFrameReceived_of_gathered hunting live (gather_wireBytes st short), State.frameGathered,
    validFrame_wireBytes short, if_pos rfl, heard]
  rfl

end

/-! The station heard (R155) -/

/-- A station PRESENT, its quiet timer at 0. -/
def State.withStation (s : State) (st : Station) : State :=
  s.setStation st { s.stations.get st with present := true, quiet := some 0 }

section
variable {s : State} {st : Station}

theorem State.hear_of_present (present : (s.stations.get st).present = true) : s.hear st = (s.withStation st, []) := by
  simp [State.hear, State.withStation, present]

theorem State.hear_of_absent (absent : (s.stations.get st).present = false) (other : st ≠ .loading) :
    s.hear st = (s.withStation st, [.stationPresence st true .frame]) := by
  simp [State.hear, State.changePresence, State.withStation, absent, other]

theorem State.planLock_eq (s : State) : s.planLock =
    ({ s with control := if s.mode = .recovery ∧ s.control.keyLocked = true then { s.control with work := .run }
        else s.control },
      if s.mode = .recovery ∧ s.control.keyLocked = true then [.mode .run .planLock] else []) := by
  unfold State.planLock
  split <;> rfl

theorem State.hear_of_loading (absent : (s.stations.get .loading).present = false) : s.hear .loading =
    ({ s.withStation .loading with
        control := if s.mode = .recovery ∧ s.control.keyLocked = true then { s.control with work := .run } else s.control },
      .stationPresence .loading true .frame :: (s.withStation .loading).overshoot true ++
        if s.mode = .recovery ∧ s.control.keyLocked = true then [.mode .run .planLock] else []) := by
  have heard : s.hear .loading = s.changePresence .loading true (some 0) .frame := by simp [State.hear, absent]
  rw [heard, State.changePresence]
  simp only [if_true, State.planLock_eq]
  rfl

/-- Presence enters the account through the loading computer's allowance alone (R59). -/
theorem State.withStation_heff (known : (s.stations.get st).present = true ∨ st ≠ .loading) :
    (s.withStation st).heff = s.heff := by
  have allowed : ((s.withStation st).stations.get .loading).present = (s.stations.get .loading).present := by
    rw [State.withStation, State.setStation, PerStation.get_set]
    split
    case isTrue first => rw [first, known.resolve_right fun other => other first.symm]
    case isFalse => rfl
  have allowed : (s.withStation st).stations.loading.present = s.stations.loading.present := allowed
  rw [State.heff, allowed]
  rfl

end

theorem gather_long (noise : List Byte) (silent : ∀ b ∈ noise, b ≠ startByte) {b : Byte} (long : 100 < b.toNat) :
    gather .hunting (noise ++ [startByte, b]) = (.hunting, []) := by
  rw [gather_noise noise _ silent]
  have started : receiveByte .hunting startByte = (.gathering [startByte], none) := by
    rw [receiveByte, if_pos rfl]
  have discarded : receiveByte (.gathering [startByte]) b = (.hunting, none) := if_pos ⟨rfl, long⟩
  simp [gather, started, discarded]

/-- Settles O56. -/
theorem framesAreReceivedAndSent : Obligations.FramesAreReceivedAndSent := by
  refine ⟨fun st s f live tables hunting short => ?_, fun st s bytes hunting gathered invalid =>
      execFrameReceived_of_invalid hunting gathered invalid, fun st s noise hunting silent =>
      ⟨execFrameReceived_of_noise hunting ?_, fun b long => execFrameReceived_of_noise hunting (gather_long noise silent long)⟩,
    fun st s bytes dead => execFrameReceived_of_dead dead bytes, fun st s got awake gathering => ?_,
    fun st s awake broken => ?_, fun st s g rest live tables queued => ?_⟩
  · have post : (s.links.get st).post f = { s.links.get st with
        mailbox := if (s.links.get st).mailbox.length < 8 then (s.links.get st).mailbox ++ [f]
          else (s.links.get st).mailbox } := by
      unfold Link.post
      split
      · rename_i room
        rw [if_pos (show (s.links.get st).mailbox.length < 8 from room)]
      · rename_i full
        rw [if_neg (show ¬ (s.links.get st).mailbox.length < 8 from full)]
    intro heard
    refine ⟨fun present => ?_, fun absent other => ?_, fun absent first => ?_⟩
    · refine (execFrameReceived_of_frame hunting live short (State.hear_of_present present)).trans ?_
      rw [show ((s.withStation st).links.get st).post f = _ from post]
      exact State.event_quiet (t := heard) tables ⟨rfl, rfl, rfl, rfl, rfl, State.withStation_heff (.inl present), rfl⟩ []
    · refine (execFrameReceived_of_frame hunting live short (State.hear_of_absent absent other)).trans ?_
      rw [show ((s.withStation st).links.get st).post f = _ from post]
      exact State.event_quiet (t := heard) tables ⟨rfl, rfl, rfl, rfl, rfl, State.withStation_heff (.inr other), rfl⟩ _
    · subst first
      intro locks
      refine EndsFrom.of_event ((execFrameReceived_of_frame hunting live short (State.hear_of_loading absent)).trans ?_)
      dsimp only
      rw [show ((s.withStation .loading).links.get .loading).post f = _ from post]
      rfl
  · have := gather_noise noise [] silent
    rwa [List.append_nil] at this
  · show execInterbyteTimeout st s = _
    simp [execInterbyteTimeout, gathering, awake, State.setReceiver]
  · show execBreakEnd st s = _
    simp [execBreakEnd, broken, awake, State.setReceiver]
  · show execFrameSent st s = _
    simp only [execFrameSent, queued, live, if_true]
    exact State.event_quiet (t := s.setLink st { s.links.get st with queue := rest, line := wireBytes st g }) tables
      ⟨rfl, rfl, rfl, rfl, rfl, rfl, rfl⟩ []

end Sys2Proof.Machine

/-! Notices placed and released (spec/10 R159, R161, R162). -/

namespace Sys2Proof.Machine

section
variable {l : Link} (k : NoticeKind) (content : List Byte)

theorem mergeSlot_other {slots : List Slot} (other : ∀ x ∈ slots, x.kind ≠ k) : mergeSlot slots k content = slots :=
  (List.map_congr_left fun x mem => if_neg (other x mem)).trans (List.map_id' slots)

theorem Link.place_of_room (room : l.queue.length < 16) (unheld : l.slots = []) :
    l.place k content = { l with queue := l.queue ++ [noticeFrame k 1 content] } :=
  if_pos ⟨room, unheld⟩

variable (held : 16 ≤ l.queue.length ∨ l.slots ≠ [])
include held

theorem Link.place_held : l.place k content =
    if l.slots.any fun s => decide (s.kind = k) then { l with slots := mergeSlot l.slots k content }
    else { l with slots := l.slots ++ [{ kind := k, content := content, merge := 1 }] } :=
  if_neg fun h => held.elim (fun full => Nat.not_lt.mpr full h.1) fun holding => holding h.2

theorem Link.place_of_new (fresh : ∀ x ∈ l.slots, x.kind ≠ k) : l.place k content =
    { l with slots := l.slots ++ [{ kind := k, content := content, merge := 1 }] } := by
  rw [Link.place_held k content held, if_neg]
  simpa using fresh

theorem Link.place_of_slot {earlier later : List Slot} {x : Slot} (slots : l.slots = earlier ++ x :: later)
    (kind : x.kind = k) (other : ∀ y ∈ earlier ++ later, y.kind ≠ k) : l.place k content =
      { l with slots := earlier ++ { kind := k, content := content, merge := min 255 (x.merge + 1) } :: later } := by
  rw [Link.place_held k content held, if_pos (by simp [slots, kind])]
  rw [List.forall_mem_append] at other
  have merged : mergeSlot l.slots k content =
      mergeSlot earlier k content ++ mergeSlot [x] k content ++ mergeSlot later k content := by
    simp [slots, mergeSlot]
  rw [merged, mergeSlot_other k content other.1, mergeSlot_other k content other.2]
  simp [mergeSlot, kind]

end

/-- The oldest slots are handed on while places are free (R162). -/
theorem releaseInto_eq (slots : List Slot) {queue : List Frame} (fits : queue.length ≤ 16) :
    releaseInto queue slots =
      (queue ++ (slots.take (min (16 - queue.length) slots.length)).map fun x => noticeFrame x.kind x.merge x.content,
        slots.drop (min (16 - queue.length) slots.length)) := by
  induction slots generalizing queue with
  | nil => simp [releaseInto]
  | cons x rest ih =>
    unfold releaseInto
    by_cases room : queue.length < 16
    · have longer : (queue ++ [noticeFrame x.kind x.merge x.content]).length = queue.length + 1 := by simp
      have freed : min (16 - queue.length) (x :: rest).length = min (16 - (queue.length + 1)) rest.length + 1 := by
        rw [List.length_cons]
        omega
      rw [if_pos (show queue.length < Config.queueSize from room), ih (by omega), longer, freed]
      simp
    · have full : 16 - queue.length = 0 := by omega
      rw [if_neg (show ¬ queue.length < Config.queueSize from room), full]
      simp

theorem Link.release_of_empty {l : Link} (idle : l.mailbox = []) (fits : l.queue.length ≤ 16) : l.release =
    { l with
      queue := l.queue ++ (l.slots.take (min (16 - l.queue.length) l.slots.length)).map fun x =>
        noticeFrame x.kind x.merge x.content
      slots := l.slots.drop (min (16 - l.queue.length) l.slots.length) } := by
  rw [Link.release, if_pos (by simp [idle]), releaseInto_eq l.slots fits]

theorem Link.release_of_mail {l : Link} (mail : l.mailbox ≠ []) : l.release = l :=
  if_neg (by simpa using mail)

theorem State.send_link (s : State) (n : Notice) (st : Station) : (s.send n).links.get st =
    if n.goesTo s.stations st then ((s.links.get st).place n.kind n.content).release else s.links.get st :=
  PerStation.get_of _ st

/-- Settles O58. -/
theorem noticesArePlacedAndReleased : Obligations.NoticesArePlacedAndReleased :=
  ⟨fun _ k content => ⟨Link.place_of_room k content, fun held => ⟨Link.place_of_new k content held,
      fun _ _ _ slots kind other => Link.place_of_slot k content held slots kind other⟩⟩,
    fun s n st => s.send_link n st, fun _ fits => ⟨Link.release_of_mail, fun idle => Link.release_of_empty idle fits⟩⟩

end Sys2Proof.Machine

/-! Lamps and move outputs (spec/02 R33, spec/08 R139). -/

namespace Sys2Proof.Machine

section
variable {s : State}

theorem State.lampOutput_of_defined {n : Nat} {l : Lane} (working : s.working = true) (plan : s.planMode = true)
    (lane : s.lanes.get n = some l) : s.lampOutput n = s.lamp l := by
  simp [State.lampOutput, working, plan, lane]

theorem State.lamp_of_idle {l : Lane} (idle : l.inService = false) :
    (s.displayed l = .full ∨ s.displayed l = .closed ∨ s.displayed l = .check ∨ s.displayed l = .moving →
      s.lamp l = .red) ∧
    (s.displayed l = .openLane ∨ s.displayed l = .filling ∨ s.displayed l = .away → s.lamp l = .dark) := by
  cases shown : s.displayed l <;> simp [State.lamp, idle, shown]

theorem State.planMode_of_idle (idle : s.mode = .profile ∨ s.mode = .powerDown) : s.planMode = false := by
  rcases idle with h | h <;> simp [State.planMode, h]

theorem State.lampOutput_of_idle {n : Nat}
    (idle : s.working = false ∨ s.mode = .profile ∨ s.mode = .powerDown ∨ s.lanes.get n = none) :
    s.lampOutput n = .dark := by
  rcases idle with still | profile | down | undefined
  · simp [State.lampOutput, still]
  · simp [State.lampOutput, State.planMode_of_idle (.inl profile)]
  · simp [State.lampOutput, State.planMode_of_idle (.inr down)]
  · simp [State.lampOutput, undefined]

theorem State.planMode_of_sealed (ok : s.modeOk = true) (working : s.working = true) (sealed : s.isSealed = true) :
    s.planMode = true :=
  State.planMode_of_ne_profile working fun profile => by
    rw [State.unsealed_of_profile ok profile] at sealed
    cases sealed

theorem State.moveOutput_of_moving (ok : s.modeOk = true) (working : s.working = true) {n : Nat} {c : Sect}
    (fitted : s.fittedSection n = some c) (moving : c.state = .moving) : s.moveOutput n = c.target := by
  obtain ⟨sealed, here⟩ := State.fittedSection_some fitted
  simp [State.moveOutput, working, State.planMode_of_sealed ok working sealed, here, moving]

theorem State.moveOutput_of_still {n : Nat} {c : Sect} (fitted : s.fittedSection n = some c) (still : c.state ≠ .moving) :
    s.moveOutput n = none := by
  obtain ⟨-, here⟩ := State.fittedSection_some fitted
  simp [State.moveOutput, here, still]

theorem State.moveOutput_of_idle (ok : s.modeOk = true) {n : Nat}
    (idle : s.working = false ∨ s.mode = .profile ∨ s.mode = .powerDown ∨ s.fittedSection n = none) :
    s.moveOutput n = none := by
  rcases idle with still | profile | down | unfitted
  · simp [State.moveOutput, still]
  · simp [State.moveOutput, State.planMode_of_idle (.inl profile)]
  · simp [State.moveOutput, State.planMode_of_idle (.inr down)]
  · cases plan : s.planMode with
    | false => simp [State.moveOutput, plan]
    | true =>
      have sealed : s.isSealed = true := ((State.modeOk_iff s).mp ok).1.sealed plan
      have undefined : s.sections.get n = none := by simpa [State.fittedSection, sealed] using unfitted
      simp [State.moveOutput, undefined]

end

/-- Settles O60. -/
theorem outputsFollowTheState : Obligations.OutputsFollowTheState :=
  fun s ok => ⟨fun _ l working plan lane => by
      rw [State.lampOutput_of_defined working plan lane]
      exact ⟨s.lamp_of_inService, State.lamp_of_idle⟩,
    fun _ => State.lampOutput_of_idle, fun _ _ _ working fitted moving target =>
      (State.moveOutput_of_moving ok working fitted moving).trans target,
    fun _ _ => State.moveOutput_of_still, fun _ => State.moveOutput_of_idle ok⟩

end Sys2Proof.Machine

/-! The reads (spec/02 R35, R36, spec/03 R52, spec/04 R75, spec/09 R157, spec/12 R174) and SUBSCRIBE (spec/10 R160). -/

namespace Sys2Proof.Machine

/-! Pages -/

theorem pageOf_eq {α : Type} (page : Nat) (xs : List α) : pageOf page xs = (xs.drop (4 * page - 4)).take 4 := by
  rw [pageOf, Nat.mul_sub_one]

section
variable {s : State} (st : Station)

theorem handleReadLane_of_lane {n page : Nat} {l : Lane} (mode : s.mode ≠ .profile) (number : laneNumberOk n = true)
    (small : page ≤ 6) (lane : s.lanes.get n = some l) : handleReadLane st (u8 n ++ u8 page) s =
      acknowledge s (laneHeader n page l ++
        if page = 0 then laneSummary s n l else (pageOf page l.entries).flatMap encEntry) := by
  have length : (u8 n ++ u8 page).length = 2 := rfl
  simp [handleReadLane, mode, length, natOf_field_u8_front (laneNumberOk_small number),
    natOf_field_u8_second n (show page < 256 by omega), number, lane, Nat.not_lt.mpr small]

theorem handleReadLane_of_page {n page : Nat} (mode : s.mode ≠ .profile) (number : laneNumberOk n = true)
    (large : 6 < page) (small : page < 256) : handleReadLane st (u8 n ++ u8 page) s = refuseAt s 2 := by
  have length : (u8 n ++ u8 page).length = 2 := rfl
  simp [handleReadLane, mode, length, natOf_field_u8_front (laneNumberOk_small number), natOf_field_u8_second n small,
    number, large]

theorem handleReadUnit_of_malformed {p : List Byte} (length : p.length = 10) (malformed : decBooking p = none) :
    handleReadUnit st p s = refuseAt s 1 := by
  simp [handleReadUnit, length, malformed]

section
variable {b : Booking} (ok : bookingOk b = true)
include ok

theorem handleReadUnit_of_record {r : UnitRecord} (record : s.findRecord b = some r) :
    handleReadUnit st (encBooking b) s = acknowledge s (u8 1 ++ encRecord r ++ recordExtras s r) := by
  simp [handleReadUnit, encBooking_length ok, decBooking_encBooking ok, record]

theorem handleReadUnit_of_entry {g : Found} (none_ : s.findRecord b = none) (entry : s.findEntry b = some g) :
    handleReadUnit st (encBooking b) s =
      acknowledge s (u8 2 ++ u8 g.laneNo ++ u8 g.position ++ encEntry g.entry ++ entryExtras s g) := by
  simp [handleReadUnit, encBooking_length ok, decBooking_encBooking ok, none_, entry]

theorem handleReadUnit_of_nowhere (none_ : s.findRecord b = none) (nowhere : s.findEntry b = none) :
    handleReadUnit st (encBooking b) s = refuse s .unknown := by
  simp [handleReadUnit, encBooking_length ok, decBooking_encBooking ok, none_, nowhere]

end

theorem handleReadAccount_of_page {page : Nat} (small : page ≤ 2) : handleReadAccount st (u8 page) s =
    acknowledge s (u8 page ++ u16 s.account.revision ++
      if page = 0 then accountSummary s
      else (List.range 8).flatMap fun i => encZoneState (s.zones.get (8 * (page - 1) + i + 1))) := by
  have length : (u8 page).length = 1 := rfl
  simp [handleReadAccount, natOf_u8 (show page < 256 by omega), length, Nat.not_lt.mpr small]

theorem handleReadAccount_of_out {page : Nat} (large : 2 < page) (small : page < 256) :
    handleReadAccount st (u8 page) s = refuseAt s 1 := by
  have length : (u8 page).length = 1 := rfl
  simp [handleReadAccount, natOf_u8 small, length, large]

theorem handleReadState_of_page {page : Nat} (small : page ≤ 5) : handleReadState st (u8 page) s =
    acknowledge s (u8 page ++ u32 s.clock.now ++ u8 s.movements.length ++
      if page = 0 then stateSummary s
      else if page = 5 then [1, 2, 3, 4, 5, 6].flatMap (encSectionState s)
      else encList encReservation (pageOf page s.movements)) := by
  have length : (u8 page).length = 1 := rfl
  simp only [handleReadState, natOf_u8 (show page < 256 by omega), length, ne_eq, not_true_eq_false, if_false,
    Nat.not_lt.mpr small]

theorem handleReadState_of_out {page : Nat} (large : 5 < page) (small : page < 256) :
    handleReadState st (u8 page) s = refuseAt s 1 := by
  have length : (u8 page).length = 1 := rfl
  simp [handleReadState, natOf_u8 small, length, large]

end

/-- A request taken leaves line-ready, and all else that page 0 reports. -/
theorem stateSummary_popMailbox (s : State) (st : Station) : stateSummary (s.popMailbox st) = stateSummary s := by
  have ready (o : Station) : ((s.popMailbox st).links.get o).ready = (s.links.get o).ready := by
    rw [State.popMailbox, State.setLink, PerStation.get_set]
    split
    case isTrue same => rw [same]
    case isFalse => rfl
  simp only [stateSummary, ready]
  rfl

/-! SUBSCRIBE -/

theorem broadcastOf_isNone {e : Nat} : (broadcastOf e).isNone = true ↔ e ∉ broadcastKinds.map noticeCode := by
  simp [broadcastOf]

theorem broadcastOf_noticeCode : ∀ k ∈ broadcastKinds, broadcastOf (noticeCode k) = some k := by
  decide

theorem noticeCode_injOn {a b : NoticeKind} (ha : a ∈ broadcastKinds) (hb : b ∈ broadcastKinds)
    (same : noticeCode a = noticeCode b) : a = b :=
  Option.some.inj ((broadcastOf_noticeCode a ha).symm.trans (same ▸ broadcastOf_noticeCode b hb))

theorem noticeCode_small (k : NoticeKind) : noticeCode k < 256 := by
  cases k <;> decide

theorem badKind_step {x : Nat} {rest seen : List Nat} (known : x ∈ broadcastKinds.map noticeCode) (fresh : x ∉ seen)
    (at_ : Nat) : badKind seen at_ (x :: rest) = badKind (x :: seen) (at_ + 1) rest := by
  have named : (broadcastOf x).isNone = false := Bool.eq_false_iff.mpr fun h => broadcastOf_isNone.mp h known
  simp [badKind, named, fresh]

theorem badKind_of_first {earlier : List Nat} {e : Nat} (later : List Nat)
    (known : ∀ x ∈ earlier, x ∈ broadcastKinds.map noticeCode) (once : earlier.Nodup) (seen : List Nat)
    (fresh : ∀ x ∈ earlier, x ∉ seen) (bad : e ∉ broadcastKinds.map noticeCode ∨ e ∈ seen ∨ e ∈ earlier) (at_ : Nat) :
    badKind seen at_ (earlier ++ e :: later) = some (at_ + earlier.length) := by
  induction earlier generalizing seen at_ with
  | nil =>
    have : (broadcastOf e).isNone = true ∨ e ∈ seen := by
      rw [broadcastOf_isNone]
      simpa using bad
    rcases this with out | again <;> simp [badKind, *]
  | cons x xs ih =>
    obtain ⟨new, once⟩ := List.nodup_cons.mp once
    rw [List.cons_append, badKind_step (known x List.mem_cons_self) (fresh x List.mem_cons_self),
      ih (fun y hy => known y (.tail _ hy)) once (x :: seen) ?fresh ?bad, List.length_cons]
    · congr 1; omega
    case fresh =>
      rintro y hy again
      obtain rfl | old := List.mem_cons.mp again
      · exact new hy
      · exact fresh y (.tail _ hy) old
    case bad => simpa only [List.mem_cons, or_comm, or_left_comm, or_assoc] using bad

theorem badKind_none {elements : List Nat} (known : ∀ x ∈ elements, x ∈ broadcastKinds.map noticeCode)
    (once : elements.Nodup) (seen : List Nat) (fresh : ∀ x ∈ elements, x ∉ seen) (at_ : Nat) :
    badKind seen at_ elements = none := by
  induction elements generalizing seen at_ with
  | nil => rfl
  | cons x xs ih =>
    obtain ⟨new, once⟩ := List.nodup_cons.mp once
    refine (badKind_step (known x List.mem_cons_self) (fresh x List.mem_cons_self) at_).trans
      (ih (fun y hy => known y (.tail _ hy)) once (x :: seen) ?_ _)
    rintro y hy again
    obtain rfl | old := List.mem_cons.mp again
    · exact new hy
    · exact fresh y (.tail _ hy) old

/-- Station `st` subscribed to `kinds`. -/
def State.subscribing (s : State) (st : Station) (kinds : List NoticeKind) : State :=
  s.setStation st { s.stations.get st with subscribed := kinds }

theorem State.subscribing_quiet (s : State) (st : Station) (kinds : List NoticeKind) : QuietFrom s (s.subscribing st kinds) := by
  have present : ((s.subscribing st kinds).stations.get .loading).present = (s.stations.get .loading).present := by
    rw [State.subscribing, State.setStation, PerStation.get_set]
    split
    case isTrue first => rw [first]
    case isFalse => rfl
  refine ⟨rfl, rfl, rfl, rfl, rfl, ?_, rfl⟩
  rw [State.heff, show (s.subscribing st kinds).stations.loading.present = s.stations.loading.present from present]
  rfl

section
variable {s : State} {st : Station} {elements : List Nat} (count : elements.length < 256) (small : ∀ e ∈ elements, e < 256)
include count small

theorem handleSubscribe_eq : handleSubscribe st (encNums elements) s =
    if 13 < elements.length then refuseAt s 1 0
    else (badKind [] 1 elements).elim
      (acknowledge (s.subscribing st (kindsListed elements)) (encNums ((kindsListed elements).map noticeCode)))
      (fun at_ => refuseAt s 1 at_) := by
  have first : natOf (field (encNums elements) 0 1) = elements.length := by
    rw [show field (encNums elements) 0 1 = u8 elements.length from rfl, natOf_u8 count]
  have rest : ((encNums elements).drop 1).map (·.toNat) = elements := readReach_enc 0 small
  have length : (encNums elements).length ≠ 0 := by simp [encNums, encList, u8]
  unfold handleSubscribe
  dsimp only
  rw [rest, first, if_neg (by simp [length])]
  cases badKind [] 1 elements <;> rfl

theorem handleSubscribe_of_long (long : 13 < elements.length) :
    handleSubscribe st (encNums elements) s = refuseAt s 1 0 := by
  rw [handleSubscribe_eq count small, if_pos long]

theorem handleSubscribe_of_bad (short : elements.length ≤ 13) {at_ : Nat} (bad : badKind [] 1 elements = some at_) :
    handleSubscribe st (encNums elements) s = refuseAt s 1 at_ := by
  rw [handleSubscribe_eq count small, if_neg (Nat.not_lt.mpr short), bad]
  rfl

theorem handleSubscribe_of_good (short : elements.length ≤ 13) (good : badKind [] 1 elements = none) :
    handleSubscribe st (encNums elements) s =
      acknowledge (s.subscribing st (kindsListed elements)) (encNums ((kindsListed elements).map noticeCode)) := by
  rw [handleSubscribe_eq count small, if_neg (Nat.not_lt.mpr short), good]
  rfl

end

section
variable {kinds : List NoticeKind} (broadcast : ∀ k ∈ kinds, k ∈ broadcastKinds)
include broadcast

/-- The kinds listed are stored in the order of Table 10-1. -/
theorem kindsListed_codes : kindsListed (kinds.map noticeCode) = broadcastKinds.filter fun k => decide (k ∈ kinds) := by
  refine List.filter_congr fun k mem => ?_
  rw [Bool.eq_iff_iff, List.contains_iff_mem, decide_eq_true_eq, List.mem_map]
  refine ⟨?_, fun listed => ⟨k, listed, rfl⟩⟩
  rintro ⟨j, listed, same⟩
  exact noticeCode_injOn (broadcast j listed) mem same ▸ listed

theorem badKind_codes (once : kinds.Nodup) : badKind [] 1 (kinds.map noticeCode) = none := by
  refine badKind_none (fun x mem => ?_) (once.map_on fun a ha b hb => noticeCode_injOn (broadcast a ha) (broadcast b hb))
    [] (by simp) 1
  obtain ⟨k, listed, rfl⟩ := List.mem_map.mp mem
  exact List.mem_map_of_mem (broadcast k listed)

theorem broadcast_length (once : kinds.Nodup) : kinds.length ≤ 13 :=
  (once.subperm broadcast).length_le

end

/-- Settles O59. -/
theorem readsReport : Obligations.ReadsReport := by
  refine ⟨fun st s f n page l o tables plan number lane => ?lane, fun st s f p o tables length malformed =>
      .of_handle rfl o tables (handleReadUnit_of_malformed st length malformed),
    fun st s f b ok o tables => ⟨fun r record => ?_, fun g none_ entry => ?_, fun none_ nowhere => ?_⟩,
    fun st s f page o tables small => ?account, fun st s f page o tables small => ?state, fun st s f o tables => ?ident,
    fun st s f elements o tables count small => ⟨fun long => ?_, fun earlier e later short split known once bad => ?_⟩,
    fun st s f kinds o tables once broadcast => ?subscribe⟩
  case lane =>
    have mode : (s.popMailbox st).mode ≠ .profile := State.ne_profile_of_planMode plan
    intro header
    refine ⟨fun first => ?_, fun low high => ?_, fun large small => .of_handle rfl o tables
      (handleReadLane_of_page st mode number large small)⟩
    · subst first
      exact .of_handle rfl o tables (handleReadLane_of_lane st mode number (Nat.zero_le _) lane)
    · refine .of_handle rfl o tables ((handleReadLane_of_lane (s := s.popMailbox st) st mode number high lane).trans ?_)
      rw [if_neg (by omega), pageOf_eq]
      rfl
  case account =>
    refine ⟨?_, ?_, ?_, fun large => .of_handle rfl o tables (handleReadAccount_of_out st large small)⟩
    · rintro rfl
      exact .of_handle rfl o tables (handleReadAccount_of_page (page := 0) (s := s.popMailbox st) st (by decide))
    · rintro rfl
      exact .of_handle rfl o tables (handleReadAccount_of_page (page := 1) (s := s.popMailbox st) st (by decide))
    · rintro rfl
      exact .of_handle rfl o tables (handleReadAccount_of_page (page := 2) (s := s.popMailbox st) st (by decide))
  case state =>
    intro header
    refine ⟨?_, fun low high => ?_, ?_, fun large => .of_handle rfl o tables (handleReadState_of_out st large small)⟩
    · rintro rfl
      refine .of_handle rfl o tables ((handleReadState_of_page (s := s.popMailbox st) st (by decide)).trans ?_)
      rw [if_pos rfl, stateSummary_popMailbox]
      rfl
    · intro four
      refine .of_handle rfl o tables ((handleReadState_of_page (s := s.popMailbox st) st (by omega)).trans ?_)
      rw [if_neg (by omega), if_neg (by omega), pageOf_eq]
      simp only [header, encList, List.append_assoc]
      rfl
    · rintro rfl
      exact .of_handle rfl o tables (handleReadState_of_page (page := 5) (s := s.popMailbox st) st (by decide))
  case ident =>
    exact .of_handle (handle := handleIdent) rfl o tables rfl
  case subscribe =>
    intro stored
    have short : (kinds.map noticeCode).length ≤ 13 := (List.length_map ..).trans_le (broadcast_length broadcast once)
    have small : ∀ e ∈ kinds.map noticeCode, e < 256 := fun e mem => by
      obtain ⟨k, -, rfl⟩ := List.mem_map.mp mem
      exact noticeCode_small k
    have taken := handleSubscribe_of_good (s := s.popMailbox st) (st := st) (by omega) small short
      (badKind_codes broadcast once)
    rw [kindsListed_codes broadcast] at taken
    exact State.takeKind_quiet o handleSubscribe taken tables (State.subscribing_quiet _ st _)
  · exact .of_handle rfl o tables (handleReadUnit_of_record (s := s.popMailbox st) st ok record)
  · exact .of_handle rfl o tables (handleReadUnit_of_entry (s := s.popMailbox st) st ok none_ entry)
  · exact .of_handle rfl o tables (handleReadUnit_of_nowhere (s := s.popMailbox st) st ok none_ nowhere)
  · exact .of_handle rfl o tables (handleSubscribe_of_long count small long)
  · subst split
    have found := badKind_of_first later known once [] (by simp) (by simpa using bad) 1
    exact .of_handle rfl o tables ((handleSubscribe_of_bad count small short found).trans (by rw [Nat.add_comm]; rfl))

end Sys2Proof.Machine
